-- ==== Sys2Proof/Word.lean ====
section
/-! DEFINITION. The word types of the TCU (spec/30_encoding.md R90, R99, R101; spec/00_scope.md R9, R10). Bit 0 is the
least significant bit of every word; the block has no byte order (spec/20_memory.md R74). -/

namespace Sys2Proof

/-- One command on the command port: 64 bits (R90). -/
abbrev CommandWord := BitVec 64

/-- One response: status in bits 31:30, data in bits 15:0 (R99). -/
abbrev ResponseWord := BitVec 32

/-- One word of the callback port: source in bits 18:16, handler reference in bits 15:0 (R101). -/
abbrev CallWord := BitVec 19

/-- A 16-bit operand, register view or handler reference (`HANDLER_W` = 16, R9). -/
abbrev Half := BitVec 16

end Sys2Proof
end

