-- ==== Sys2Proof/Config.lean ====
section
/-! DEFINITION. What an implementation fixes and the spec leaves open (spec/00_scope.md R8, R9). Each is an opaque
constant without a body, so no proof can see its value and every claim holds for all of them. The parameter `IRQ_KIND`,
for which the spec does give a value (R124), is `irqKind` in Machine/Operands.lean. -/

namespace Sys2Proof

/-- `PULLUP[l]`: whether init enables the internal pull-up of line `l`; OPEN, "a model takes it as an argument"
(spec/43_external_interrupt.md R161, D25; log entry 4). -/
opaque Config.pullup : Fin 3 → Bool

/-- `ARB`: the arbiter among simultaneously requesting causes; OPEN (spec/60_exceptions.md R194, D19; log entry 3).
The argument is the counter `State.arbDraws`, so every entry the sequencer takes on its own is a fresh choice. -/
opaque Config.arb : Nat → Nat

end Sys2Proof
end

