-- ==== Sys2Proof/Syntax.lean ====
section
/-! DEFINITION. The document's data model (spec/00_scope.md R12) and the command set, one constructor of `Instr` per row
of spec/opcode_table.json. A command's operands are the fields its row of spec/30_encoding.md R95 lists as used, each
kept as the code that stands in the word (R92, R93): an invalid code is an operand like any other and has a meaning,
the IGNORED response (R96). -/

namespace Sys2Proof

/-- `TimerId`: one physical counter; T0 and T2 are 8-bit, T1 is 16-bit with two channels (R3). -/
inductive TimerId where
  | t0 | t1 | t2
deriving DecidableEq, Repr

/-- `TimerMode` (R12); `compare` is the mode the document also writes CTC. -/
inductive TimerMode where
  | overflow | phaseCorrectPwm | compare | fastPwm
deriving DecidableEq, Repr

/-- `ClockPrescale` (R12); `stopped` is the document's None: no clock reaches the counter. -/
inductive ClockPrescale where
  | stopped | div1 | div8 | div64 | div256 | div1024
deriving DecidableEq, Repr

/-- `CompareOutputMode` (R12). -/
inductive CompareOutputMode where
  | disconnected | toggle | clear | set
deriving DecidableEq, Repr

/-- `ChannelSelect`: the two compare channels of T1 (R12). An operand may also name no channel (C2). -/
inductive Channel where
  | a | b
deriving DecidableEq, Repr

/-- A legal (timer, channel) pairing, that is one compare channel of the block: (T0, None), (T1, A), (T1, B) and
(T2, None), "exactly" these four (spec/40_timer_config.md R121). -/
inductive CompareUnit where
  | t0
  | t1 (ch : Channel)
  | t2
deriving DecidableEq, Repr

/-- `InterruptSource`: the six logical interrupt sources (R3). -/
inductive Source where
  | timer0 | timer1 | timer2 | ext0 | ext1 | ext2
deriving DecidableEq, Repr

/-- An external interrupt line (R3). -/
inductive Line where
  | line0 | line1 | line2
deriving DecidableEq, Repr

/-- `edgeMode` (R12); line 2 knows only `falling` and `rising`. -/
inductive EdgeMode where
  | lowLevel | anyChange | falling | rising
deriving DecidableEq, Repr

/-- The ten commands (spec/30_encoding.md R95). -/
inductive Instr where
  /-- `Timer.init(config)`, R120. -/
  | tinit (tid mode : BitVec 2) (clk : BitVec 3) (com ch : BitVec 2) (ival cval : Half)
  /-- `Timer.start(timerId, clock)`, R126. -/
  | tstart (tid : BitVec 2) (clk : BitVec 3)
  /-- `Timer.stop(timerId)`, R125. -/
  | tstop (tid : BitVec 2)
  /-- `Timer.deinit(timerId)`, R128. -/
  | tdeinit (tid : BitVec 2)
  /-- `Timer.changeCompareValue(timerId, newValue, channel)`, R140. -/
  | tcmp (tid ch : BitVec 2) (cval : Half)
  /-- `setCallback(source, callback)`, R150. -/
  | setcb (src : BitVec 3) (hnd : Half)
  /-- `ExternalInterrupt.init(config)`, R160. -/
  | xinit (line edge : BitVec 2)
  /-- `ExternalInterrupt.deinit(lineId)`, R163. -/
  | xdeinit (line : BitVec 2)
  /-- Return of a callback to `dispatch`, R153. -/
  | cbret
  /-- Register read-back, R170. -/
  | rdreg (addr : BitVec 8)
deriving DecidableEq, Repr

/-- Why a word selects no command (R97). -/
inductive DecodeError where
  /-- `op` in 0x0, 0xB to 0xF. -/
  | reservedOpcode (op : BitVec 4)
deriving DecidableEq, Repr

end Sys2Proof
end

