-- ==== Sys2Proof/WellFormed.lean ====
section
/-! DEFINITION. Well-formed commands: every field the command uses holds a code that has an enumeration value
(spec/30_encoding.md R94, R96). A pairing that gives CONFIG_ERROR and an unmapped read address are well-formed: they
are checked later, in the state or against the map (R102). -/

namespace Sys2Proof

/-- R94: `tid` 3 is invalid. -/
def validTid (tid : BitVec 2) : Bool := tid ≠ 3#2

/-- R94: `clk` 6 and 7 are invalid. -/
def validClk (clk : BitVec 3) : Bool := clk ≠ 6#3 && clk ≠ 7#3

/-- R94: `ch` 3 is invalid; 0 is the absent channel. -/
def validCh (ch : BitVec 2) : Bool := ch ≠ 3#2

/-- R94: `src` 6 and 7 are invalid. -/
def validSrc (src : BitVec 3) : Bool := src ≠ 6#3 && src ≠ 7#3

/-- R94: `line` 3 is invalid. -/
def validLine (line : BitVec 2) : Bool := line ≠ 3#2

/-- The cases of R96, complete. `ch` of TCMP is a used field for T1 only, and there it must name a channel. -/
def Instr.wellFormed : Instr → Bool
  | .tinit tid _ clk _ ch _ _ => validTid tid && validClk clk && validCh ch
  | .tstart tid clk => validTid tid && validClk clk
  | .tstop tid => validTid tid
  | .tdeinit tid => validTid tid
  | .tcmp tid ch _ => validTid tid && (tid ≠ 1#2 || (ch == 1#2 || ch == 2#2))
  | .setcb src _ => validSrc src
  | .xinit line _ => validLine line
  | .xdeinit line => validLine line
  | .cbret => true
  | .rdreg _ => true

end Sys2Proof
end

