-- ==== Sys2Proof/Decode.lean ====
section
/-! DEFINITION. Decoding and encoding of command words (spec/30_encoding.md R90 to R98, R102 step 1). Decoding is
total on all 2^64 words; the opcode alone selects the command and the format, and reserved bits and unused fields are
not looked at (R98). -/

namespace Sys2Proof

/-- `W[63:60]`, the opcode in every format (R90). -/
def opField (w : CommandWord) : BitVec 4 := w.extractLsb' 60 4

/-- Format T, bits 59:58 (R91). -/
def tidField (w : CommandWord) : BitVec 2 := w.extractLsb' 58 2

/-- Format T, bits 57:56 (R91). -/
def modeField (w : CommandWord) : BitVec 2 := w.extractLsb' 56 2

/-- Format T, bits 55:53 (R91). -/
def clkField (w : CommandWord) : BitVec 3 := w.extractLsb' 53 3

/-- Format T, bits 52:51 (R91). -/
def comField (w : CommandWord) : BitVec 2 := w.extractLsb' 51 2

/-- Format T, bits 50:49 (R91). -/
def chField (w : CommandWord) : BitVec 2 := w.extractLsb' 49 2

/-- Format T, bits 47:32 (R91). -/
def ivalField (w : CommandWord) : Half := w.extractLsb' 32 16

/-- Format T, bits 31:16 (R91). -/
def cvalField (w : CommandWord) : Half := w.extractLsb' 16 16

/-- Format C, bits 59:57 (R91). -/
def srcField (w : CommandWord) : BitVec 3 := w.extractLsb' 57 3

/-- Format C, bits 15:0 (R91). -/
def hndField (w : CommandWord) : Half := w.extractLsb' 0 16

/-- Format X, bits 59:58 (R91). -/
def lineField (w : CommandWord) : BitVec 2 := w.extractLsb' 58 2

/-- Format X, bits 57:56 (R91). -/
def edgeField (w : CommandWord) : BitVec 2 := w.extractLsb' 56 2

/-- Format R, bits 7:0 (R91). -/
def addrField (w : CommandWord) : BitVec 8 := w.extractLsb' 0 8

/-- The opcode map (R95); every other opcode is reserved (R97). -/
def decode (w : CommandWord) : Except DecodeError Instr :=
  match opField w with
  | 0x1#4 => .ok (.tinit (tidField w) (modeField w) (clkField w) (comField w) (chField w) (ivalField w) (cvalField w))
  | 0x2#4 => .ok (.tstart (tidField w) (clkField w))
  | 0x3#4 => .ok (.tstop (tidField w))
  | 0x4#4 => .ok (.tdeinit (tidField w))
  | 0x5#4 => .ok (.tcmp (tidField w) (chField w) (cvalField w))
  | 0x6#4 => .ok (.setcb (srcField w) (hndField w))
  | 0x7#4 => .ok (.xinit (lineField w) (edgeField w))
  | 0x8#4 => .ok (.xdeinit (lineField w))
  | 0x9#4 => .ok .cbret
  | 0xA#4 => .ok (.rdreg (addrField w))
  | op => .error (.reservedOpcode op)

/-- A field's contribution to the word: `v` with its bit 0 at bit `lo`, 0 elsewhere (R10, R91). -/
def place (lo : Nat) {n : Nat} (v : BitVec n) : CommandWord := v.setWidth 64 <<< lo

/-- The word of a command: its opcode, its fields in their places, 0 in every other bit, as an assembler writes it
(R91, R95, R98). The `ch` of TCMP is put into the word for every timer, as R103's row has it; on T0 and T2 R98 has 0 there,
which is what `-` gives (DESIGN CHOICE, log entry 22). -/
def encode : Instr → CommandWord
  | .tinit tid mode clk com ch ival cval =>
    place 60 0x1#4 ||| place 58 tid ||| place 56 mode ||| place 53 clk ||| place 51 com ||| place 49 ch
      ||| place 32 ival ||| place 16 cval
  | .tstart tid clk => place 60 0x2#4 ||| place 58 tid ||| place 53 clk
  | .tstop tid => place 60 0x3#4 ||| place 58 tid
  | .tdeinit tid => place 60 0x4#4 ||| place 58 tid
  | .tcmp tid ch cval => place 60 0x5#4 ||| place 58 tid ||| place 49 ch ||| place 16 cval
  | .setcb src hnd => place 60 0x6#4 ||| place 57 src ||| place 0 hnd
  | .xinit line edge => place 60 0x7#4 ||| place 58 line ||| place 56 edge
  | .xdeinit line => place 60 0x8#4 ||| place 58 line
  | .cbret => place 60 0x9#4
  | .rdreg addr => place 60 0xA#4 ||| place 0 addr

/-- The bits of a command's word that its row of the opcode map uses, opcode included (R92, R95); the rest are the
bits R98 says are not examined. `ch` of TCMP counts as used: whether it is examined depends on `tid`. -/
def usedMask : Instr → CommandWord
  | .tinit .. => 0xFFFEFFFFFFFF0000#64
  | .tstart .. => 0xFCE0000000000000#64
  | .tstop _ => 0xFC00000000000000#64
  | .tdeinit _ => 0xFC00000000000000#64
  | .tcmp .. => 0xFC060000FFFF0000#64
  | .setcb .. => 0xFE0000000000FFFF#64
  | .xinit .. => 0xFF00000000000000#64
  | .xdeinit _ => 0xFC00000000000000#64
  | .cbret => 0xF000000000000000#64
  | .rdreg _ => 0xF0000000000000FF#64

/-- The instruction this decoder reads from the word whose low `nbits` bits are those of `w`, every higher bit 0. -/
def decodeTableWord (nbits w : Nat) : Option Instr :=
  match decode (BitVec.ofNat 64 (w % 2 ^ nbits)) with
  | .ok i => some i
  | .error _ => none

end Sys2Proof
end

