-- ==== Sys2Proof/Machine/State.lean ====
section
/-! DEFINITION. The state of the TCU as plain data (spec/10_state.md R22), its reset value (R48), and the reasons a step
can stop (there are none: spec/60_exceptions.md R180). `Block` is the complete architectural state of R22; `Ports`,
`schedule` and `arbDraws` are the model's own and no state of the block. -/

namespace Sys2Proof.Machine

open Sys2Proof

/-- The registers of an 8-bit timer, T0 or T2 (R22). `ctrl` holds FOC, WGM, COM and CS (R24); `ocr` is the compare
buffer and `ocrl` its latch (R29, R32); bits 0 and 1 of `ien` and `iflg` are OVF and CMP (R33, R34); `life` is 0 Uninit,
1 Configured, 2 Stopped (R36). -/
structure Timer8 where
  ctrl : BitVec 8
  cnt  : BitVec 8
  ocr  : BitVec 8
  ocrl : BitVec 8
  ien  : BitVec 2
  iflg : BitVec 2
  pdir : BitVec 1
  life : BitVec 2
deriving DecidableEq, Repr

/-- The registers of T1 (R22). `ctrla` holds COMA, COMB, FOCA, FOCB and WGM (R25), `ctrlb` CS (R26); `ocra`, `ocrb` are
the compare buffers and `ocrla`, `ocrlb` their latches (R30, R32); bits 0, 1, 2 of `ien` and `iflg` are OVF, CMPA, CMPB
(R33, R34); bits 0 and 1 of `pdir` are the pins of A and B (R35). -/
structure Timer16 where
  ctrla : BitVec 8
  ctrlb : BitVec 8
  cnt   : BitVec 16
  ocra  : BitVec 16
  ocrb  : BitVec 16
  ocrla : BitVec 16
  ocrlb : BitVec 16
  ien   : BitVec 3
  iflg  : BitVec 3
  pdir  : BitVec 2
  life  : BitVec 2
deriving DecidableEq, Repr

/-- The registers of the external lines (R37 to R42); bit `l` of a 3-bit register belongs to line `l`. -/
structure ExtLines where
  esc0  : BitVec 2
  esc1  : BitVec 2
  esc2  : BitVec 1
  eien  : BitVec 3
  eiflg : BitVec 3
  epdir : BitVec 3
  epup  : BitVec 3
  xlife : BitVec 3
deriving DecidableEq, Repr

/-- The callback slots `CB[0]` to `CB[5]`, one per interrupt source, 0 = empty (R43). -/
structure Slots where
  timer0 : Half
  timer1 : Half
  timer2 : Half
  ext0   : Half
  ext1   : Half
  ext2   : Half
deriving DecidableEq, Repr

/-- The sequencer record `SEQ` (R44). -/
structure Seq where
  busy  : Bool
  src   : BitVec 3
  cause : BitVec 2
  hnd   : Half
deriving DecidableEq, Repr

/-- The complete architectural state of the block: "Nothing else is state" (R22). -/
structure Block where
  t0  : Timer8
  t1  : Timer16
  t2  : Timer8
  ext : ExtLines
  cb  : Slots
  seq : Seq
deriving DecidableEq, Repr

/-- An event of the environment (spec/60_exceptions.md R186). `count` supplies the counter's new value; on an 8-bit
timer its low 8 bits are the value, so every value of [0, 2^W(t) - 1] can be supplied (log entry 8). -/
inductive Event where
  | count (t : TimerId) (v : Half)
  | wrap (t : TimerId)
  | ovf (t : TimerId)
  | cmp (u : CompareUnit)
  | ext (l : Line)
deriving DecidableEq, Repr

/-- The ten interrupt causes (R184). -/
inductive Cause where
  | ovf0 | cmp0
  | ovf1 | cmpa1 | cmpb1
  | ovf2 | cmp2
  | ext0 | ext1 | ext2
deriving DecidableEq, Repr

/-- A move of one agent (spec/00_scope.md R7): the host sends a command word, the environment raises an event, the
sequencer takes a dispatch entry for the cause its arbiter chose, or the reset input is driven (R220). -/
inductive Move where
  | command (w : CommandWord)
  | event (e : Event)
  | dispatch (c : Cause)
  | reset
deriving DecidableEq, Repr

/-- What the LAST step drove on the two output ports (R45): the response word, if it was a command, and the word of
the callback port, if it was a dispatch entry that called a handler (log entry 5). -/
structure Ports where
  response : Option ResponseWord
  call     : Option CallWord
deriving DecidableEq, Repr

/-- The model's state: the block; the output ports; the moves still to come, first one next (log entry 1); and the
number of free arbiter choices taken, the argument of `Config.arb` (log entry 3). -/
structure State where
  block    : Block
  ports    : Ports
  schedule : List Move
  arbDraws : Nat
deriving DecidableEq, Repr

/-- What the next move needs: a decoded command to execute, or nothing more (the move is done). -/
inductive Turn where
  | command (i : Instr) (s : State)
  | done (s : State)
deriving DecidableEq, Repr

/-- Why a step stops with a fault: no constructor. "A command never traps" (R180) and the treatment `fault` is "not
used: the block has no trap" (spec/93_implementation_defined.md), so nobody raises one. -/
inductive Fault where
deriving DecidableEq, Repr

/-- Why a step has no meaning. -/
inductive Refusal where
  /-- Raised by an arm of `exec` for an instruction not modelled yet; safe. No arm raises it: all ten are modelled. -/
  | notModelled (mnemonic : String)
deriving DecidableEq, Repr

/-- The outcome of a step of this machine. -/
abbrev Result := Host.Outcome State Fault Refusal

/-- R48: every register of an 8-bit timer is 0 after reset. -/
def Timer8.reset : Timer8 :=
  { ctrl := 0, cnt := 0, ocr := 0, ocrl := 0, ien := 0, iflg := 0, pdir := 0, life := 0 }

/-- R48: every register of T1 is 0 after reset. -/
def Timer16.reset : Timer16 :=
  { ctrla := 0, ctrlb := 0, cnt := 0, ocra := 0, ocrb := 0, ocrla := 0, ocrlb := 0, ien := 0, iflg := 0, pdir := 0,
    life := 0 }

/-- R48: every register of the external lines is 0 after reset. -/
def ExtLines.reset : ExtLines :=
  { esc0 := 0, esc1 := 0, esc2 := 0, eien := 0, eiflg := 0, epdir := 0, epup := 0, xlife := 0 }

/-- R48: every slot is empty after reset, the document's "default empty". -/
def Slots.reset : Slots :=
  { timer0 := 0, timer1 := 0, timer2 := 0, ext0 := 0, ext1 := 0, ext2 := 0 }

/-- R44, R48: the idle sequencer; with `busy` 0 the other fields are 0. -/
def Seq.idle : Seq :=
  { busy := false, src := 0, cause := 0, hnd := 0 }

/-- R48, R220: the block after reset. -/
def Block.reset : Block :=
  { t0 := Timer8.reset, t1 := Timer16.reset, t2 := Timer8.reset, ext := ExtLines.reset, cb := Slots.reset,
    seq := Seq.idle }

/-- No port driven. -/
def Ports.quiet : Ports :=
  { response := none, call := none }

/-- The machine right after reset (R220): the block at R48's values, no port driven, no move waiting, since "nothing
runs at reset" until the host sends a command (R221). -/
def State.reset : State :=
  { block := Block.reset, ports := Ports.quiet, schedule := [], arbDraws := 0 }

end Sys2Proof.Machine
end

