-- ==== Sys2Proof/Machine/Operands.lean ====
section
/-! DEFINITION. Operand forms: the enumeration codes of spec/30_encoding.md R94 read both ways, the bit-field accesses of
spec/00_scope.md R10 and R11, the truncations of spec/41_compare_update.md R145, and the words of the response and
callback ports (R99 to R101). -/

namespace Sys2Proof.Machine

open Sys2Proof

/-- `v[lo+n-1:lo]` (R10). -/
def getField {m : Nat} (lo n : Nat) (r : BitVec m) : BitVec n := r.extractLsb' lo n

/-- `REG.F <- v`: writes the field whose bit 0 is bit `lo` and leaves the other bits unchanged (R11). -/
def putField {m n : Nat} (lo : Nat) (v : BitVec n) (r : BitVec m) : BitVec m :=
  (r &&& ~~~((BitVec.allOnes n).setWidth m <<< lo)) ||| (v.setWidth m <<< lo)

/-- `v[i]` (R10). -/
def getBit {m : Nat} (i : Nat) (r : BitVec m) : Bool := r.getLsbD i

/-- `REG[i] <- v` (R11). -/
def putBit {m : Nat} (i : Nat) (v : Bool) (r : BitVec m) : BitVec m := putField i (BitVec.ofBool v) r

/-- `mask_8(v) = v mod 2^8` (R10, R145). -/
def mask8 (v : Half) : BitVec 8 := v.setWidth 8

/-- `mask_16(v + 1)`: the sum is exact in 17 bits and then reduced, so 65535 wraps to 0 (R145, R31). -/
def pairedPeriod (v : Half) : Half := (v.setWidth 17 + 1#17).setWidth 16

/-- `zext_16` (R10). -/
def zext16 {m : Nat} (v : BitVec m) : Half := v.setWidth 16

/-- `tid` codes (R94); 3 is invalid. -/
def timerOf (tid : BitVec 2) : Option TimerId :=
  match tid with
  | 0#2 => some .t0
  | 1#2 => some .t1
  | 2#2 => some .t2
  | _ => none

/-- `mode` codes (R94); none is invalid. -/
def modeOf (mode : BitVec 2) : TimerMode :=
  match mode with
  | 0#2 => .overflow
  | 1#2 => .phaseCorrectPwm
  | 2#2 => .compare
  | _ => .fastPwm

/-- The `WGM` value of a mode (spec/10_state.md R27). -/
def modeCode : TimerMode → BitVec 2
  | .overflow => 0
  | .phaseCorrectPwm => 1
  | .compare => 2
  | .fastPwm => 3

/-- `clk` codes (R94); 6 and 7 are invalid. -/
def clockOf (clk : BitVec 3) : Option ClockPrescale :=
  match clk with
  | 0#3 => some .stopped
  | 1#3 => some .div1
  | 2#3 => some .div8
  | 3#3 => some .div64
  | 4#3 => some .div256
  | 5#3 => some .div1024
  | _ => none

/-- The `CS` value of a prescale (spec/10_state.md R27). -/
def clockCode : ClockPrescale → BitVec 3
  | .stopped => 0
  | .div1 => 1
  | .div8 => 2
  | .div64 => 3
  | .div256 => 4
  | .div1024 => 5

/-- `com` codes (R94); none is invalid. -/
def outputModeOf (com : BitVec 2) : CompareOutputMode :=
  match com with
  | 0#2 => .disconnected
  | 1#2 => .toggle
  | 2#2 => .clear
  | _ => .set

/-- The `COM` value of a compare output mode (spec/10_state.md R27). -/
def outputModeCode : CompareOutputMode → BitVec 2
  | .disconnected => 0
  | .toggle => 1
  | .clear => 2
  | .set => 3

/-- `ch` codes (R94): 0 names no channel, 3 is invalid. -/
def channelOf (ch : BitVec 2) : Option (Option Channel) :=
  match ch with
  | 0#2 => some none
  | 1#2 => some (some .a)
  | 2#2 => some (some .b)
  | _ => none

/-- The pairings TINIT accepts; the others are CE1 and CE2 (R121, R181). -/
def unitOf : TimerId → Option Channel → Option CompareUnit
  | .t0, none => some .t0
  | .t0, some _ => none
  | .t1, none => none
  | .t1, some ch => some (.t1 ch)
  | .t2, none => some .t2
  | .t2, some _ => none

/-- `src` codes (R94); 6 and 7 are invalid. -/
def sourceOf (src : BitVec 3) : Option Source :=
  match src with
  | 0#3 => some .timer0
  | 1#3 => some .timer1
  | 2#3 => some .timer2
  | 3#3 => some .ext0
  | 4#3 => some .ext1
  | 5#3 => some .ext2
  | _ => none

/-- The code of a source (R94; spec/10_state.md R43). -/
def sourceCode : Source → BitVec 3
  | .timer0 => 0
  | .timer1 => 1
  | .timer2 => 2
  | .ext0 => 3
  | .ext1 => 4
  | .ext2 => 5

/-- `line` codes (R94); 3 is invalid. -/
def lineOf (line : BitVec 2) : Option Line :=
  match line with
  | 0#2 => some .line0
  | 1#2 => some .line1
  | 2#2 => some .line2
  | _ => none

/-- The number of a line, its bit in the 3-bit line registers (spec/10_state.md R38). -/
def lineIndex : Line → Fin 3
  | .line0 => 0
  | .line1 => 1
  | .line2 => 2

/-- `edge` codes (R94); none is invalid. -/
def edgeOf (edge : BitVec 2) : EdgeMode :=
  match edge with
  | 0#2 => .lowLevel
  | 1#2 => .anyChange
  | 2#2 => .falling
  | _ => .rising

/-- The ordinal of an edge mode, the value of a 2-bit selector (spec/10_state.md R37). -/
def edgeCode : EdgeMode → BitVec 2
  | .lowLevel => 0
  | .anyChange => 1
  | .falling => 2
  | .rising => 3

/-- CE3: line 2 supports only Falling and Rising (spec/43_external_interrupt.md R160, spec/60_exceptions.md R181). -/
def edgeSupported : Line → EdgeMode → Bool
  | .line2, .lowLevel => false
  | .line2, .anyChange => false
  | .line2, .falling => true
  | .line2, .rising => true
  | .line0, _ => true
  | .line1, _ => true

/-- The two PWM modes, in which init drives the output pin (spec/40_timer_config.md R122). -/
def isPwm : TimerMode → Bool
  | .overflow => false
  | .phaseCorrectPwm => true
  | .compare => false
  | .fastPwm => true

/-- Which of a timer's interrupt enables init sets. -/
inductive IrqKind where
  | ovf | cmp
deriving DecidableEq, Repr

/-- The parameter `IRQ_KIND` with the spec's value (R9, R124, D12; log entry 6). -/
def irqKind : TimerMode → IrqKind
  | .overflow => .ovf
  | .phaseCorrectPwm => .cmp
  | .compare => .cmp
  | .fastPwm => .cmp

/-- The modes in which TINIT pairs the compare registers of T1 on channel B (R123, C1). -/
def pairsOnInit : TimerMode → Bool
  | .overflow => false
  | .phaseCorrectPwm => false
  | .compare => true
  | .fastPwm => true

/-- The lifecycle states (spec/10_state.md R36). -/
def lifeUninit : BitVec 2 := 0

/-- R36. -/
def lifeConfigured : BitVec 2 := 1

/-- R36. -/
def lifeStopped : BitVec 2 := 2

/-- The status of a response (R100). -/
inductive Status where
  | ok | configError | ignored
deriving DecidableEq, Repr

/-- R100; 3 is never produced. -/
def statusCode : Status → BitVec 2
  | .ok => 0
  | .configError => 1
  | .ignored => 2

/-- The response word: status in bits 31:30, zero in 29:16, data in 15:0 (R99). -/
def responseWord (st : Status) (data : Half) : ResponseWord :=
  (statusCode st).setWidth 32 <<< 30 ||| data.setWidth 32

/-- The word of the callback port: source in bits 18:16, handler reference in 15:0 (R101). -/
def callWord (s : Source) (hnd : Half) : CallWord :=
  (sourceCode s).setWidth 19 <<< 16 ||| hnd.setWidth 19

end Sys2Proof.Machine
end

