-- ==== Sys2Proof/Machine/Flags.lean ====
section
/-! DEFINITION. The ten interrupt causes (spec/60_exceptions.md R184): the flag, the enable, the source and the code of
each, and what is requesting (R185). -/

namespace Sys2Proof.Machine

open Sys2Proof

/-- Every cause, in the order of R184's table. -/
def allCauses : List Cause :=
  [.ovf0, .cmp0, .ovf1, .cmpa1, .cmpb1, .ovf2, .cmp2, .ext0, .ext1, .ext2]

/-- The source a cause belongs to; its slot serves all of them (R184, R189). -/
def causeSource : Cause → Source
  | .ovf0 => .timer0
  | .cmp0 => .timer0
  | .ovf1 => .timer1
  | .cmpa1 => .timer1
  | .cmpb1 => .timer1
  | .ovf2 => .timer2
  | .cmp2 => .timer2
  | .ext0 => .ext0
  | .ext1 => .ext1
  | .ext2 => .ext2

/-- The cause code (R184). -/
def causeCode : Cause → BitVec 2
  | .ovf0 => 0
  | .cmp0 => 1
  | .ovf1 => 0
  | .cmpa1 => 1
  | .cmpb1 => 2
  | .ovf2 => 0
  | .cmp2 => 1
  | .ext0 => 0
  | .ext1 => 0
  | .ext2 => 0

/-- The cause with a source code and a cause code, if that cause exists (R184). -/
def causeOf (src : BitVec 3) (code : BitVec 2) : Option Cause :=
  match src, code with
  | 0#3, 0#2 => some .ovf0
  | 0#3, 1#2 => some .cmp0
  | 1#3, 0#2 => some .ovf1
  | 1#3, 1#2 => some .cmpa1
  | 1#3, 2#2 => some .cmpb1
  | 2#3, 0#2 => some .ovf2
  | 2#3, 1#2 => some .cmp2
  | 3#3, 0#2 => some .ext0
  | 4#3, 0#2 => some .ext1
  | 5#3, 0#2 => some .ext2
  | _, _ => none

/-- The flag of a cause (R184). -/
def flagOf (c : Cause) (b : Block) : Bool :=
  match c with
  | .ovf0 => getBit 0 b.t0.iflg
  | .cmp0 => getBit 1 b.t0.iflg
  | .ovf1 => getBit 0 b.t1.iflg
  | .cmpa1 => getBit 1 b.t1.iflg
  | .cmpb1 => getBit 2 b.t1.iflg
  | .ovf2 => getBit 0 b.t2.iflg
  | .cmp2 => getBit 1 b.t2.iflg
  | .ext0 => getBit 0 b.ext.eiflg
  | .ext1 => getBit 1 b.ext.eiflg
  | .ext2 => getBit 2 b.ext.eiflg

/-- The enable of a cause (R184). -/
def enableOf (c : Cause) (b : Block) : Bool :=
  match c with
  | .ovf0 => getBit 0 b.t0.ien
  | .cmp0 => getBit 1 b.t0.ien
  | .ovf1 => getBit 0 b.t1.ien
  | .cmpa1 => getBit 1 b.t1.ien
  | .cmpb1 => getBit 2 b.t1.ien
  | .ovf2 => getBit 0 b.t2.ien
  | .cmp2 => getBit 1 b.t2.ien
  | .ext0 => getBit 0 b.ext.eien
  | .ext1 => getBit 1 b.ext.eien
  | .ext2 => getBit 2 b.ext.eien

/-- Writes the flag bit of a cause "and no other bit" (R196). -/
def writeFlag (c : Cause) (v : Bool) (b : Block) : Block :=
  match c with
  | .ovf0 => { b with t0 := { b.t0 with iflg := putBit 0 v b.t0.iflg } }
  | .cmp0 => { b with t0 := { b.t0 with iflg := putBit 1 v b.t0.iflg } }
  | .ovf1 => { b with t1 := { b.t1 with iflg := putBit 0 v b.t1.iflg } }
  | .cmpa1 => { b with t1 := { b.t1 with iflg := putBit 1 v b.t1.iflg } }
  | .cmpb1 => { b with t1 := { b.t1 with iflg := putBit 2 v b.t1.iflg } }
  | .ovf2 => { b with t2 := { b.t2 with iflg := putBit 0 v b.t2.iflg } }
  | .cmp2 => { b with t2 := { b.t2 with iflg := putBit 1 v b.t2.iflg } }
  | .ext0 => { b with ext := { b.ext with eiflg := putBit 0 v b.ext.eiflg } }
  | .ext1 => { b with ext := { b.ext with eiflg := putBit 1 v b.ext.eiflg } }
  | .ext2 => { b with ext := { b.ext with eiflg := putBit 2 v b.ext.eiflg } }

/-- The event sets the flag (R186). -/
def setFlag (c : Cause) (b : Block) : Block := writeFlag c true b

/-- "Clear the flag of cause c", unconditionally (R196). -/
def clearFlag (c : Cause) (b : Block) : Block := writeFlag c false b

/-- Requesting: pending and enabled (R185). -/
def requesting (c : Cause) (b : Block) : Bool := flagOf c b && enableOf c b

/-- The set `P` of R192, as a list in the order of R184's table; the order carries no priority (R194). -/
def requestingCauses (b : Block) : List Cause := allCauses.filter (requesting · b)

/-- The overflow cause of a timer (R184, R186). -/
def ovfCause : TimerId → Cause
  | .t0 => .ovf0
  | .t1 => .ovf1
  | .t2 => .ovf2

/-- The compare cause of a compare channel (R184, R186). -/
def cmpCause : CompareUnit → Cause
  | .t0 => .cmp0
  | .t1 .a => .cmpa1
  | .t1 .b => .cmpb1
  | .t2 => .cmp2

/-- The cause of an external line (R184, R186). -/
def extCause : Line → Cause
  | .line0 => .ext0
  | .line1 => .ext1
  | .line2 => .ext2

end Sys2Proof.Machine
end

