-- ==== Sys2Proof/Machine/Ops.lean ====
section
/-! DEFINITION. The named operations on the state: the responses of the command port, the register effects the commands
share, the register read space, the environment's events, taking an interrupt (dispatch entry) and returning from it,
reset, and the choice of the next move. -/

namespace Sys2Proof.Machine

open Sys2Proof

/-! ### Responses (spec/30_encoding.md R99, R100; spec/00_scope.md R11) -/

/-- `respond(status, data)`: drives the response port; no step drives both ports. -/
def respond (st : Status) (data : Half) (s : State) : State :=
  { s with ports := { response := some (responseWord st data), call := none } }

/-- The step drives neither port. -/
def quiet (s : State) : State := { s with ports := Ports.quiet }

/-- The command is performed: the block becomes `b` and the response is OK with data 0. -/
def perform (b : Block) (s : State) : Result := .next (respond .ok 0 { s with block := b })

/-- `ignore`: IGNORED with data 0, no state changed (R11, R182). -/
def ignore (s : State) : Result := .next (respond .ignored 0 s)

/-- `raise ConfigurationError`: CONFIG_ERROR with data 0, no state changed (R11, R181). -/
def raiseConfigError (s : State) : Result := .next (respond .configError 0 s)

/-! ### Timer registers -/

/-- `CS[t]`: `CTRL[t].CS`, or `CTRLB[T1].CS` (spec/10_state.md R24, R26). -/
def clockSelect (t : TimerId) (b : Block) : BitVec 3 :=
  match t with
  | .t0 => getField 0 3 b.t0.ctrl
  | .t1 => getField 0 3 b.t1.ctrlb
  | .t2 => getField 0 3 b.t2.ctrl

/-- `CS[t] <- cs`. -/
def setClockSelect (t : TimerId) (cs : BitVec 3) (b : Block) : Block :=
  match t with
  | .t0 => { b with t0 := { b.t0 with ctrl := putField 0 cs b.t0.ctrl } }
  | .t1 => { b with t1 := { b.t1 with ctrlb := putField 0 cs b.t1.ctrlb } }
  | .t2 => { b with t2 := { b.t2 with ctrl := putField 0 cs b.t2.ctrl } }

/-- `LIFE[t]` (spec/10_state.md R36). -/
def lifeOf (t : TimerId) (b : Block) : BitVec 2 :=
  match t with
  | .t0 => b.t0.life
  | .t1 => b.t1.life
  | .t2 => b.t2.life

/-- `LIFE[t] <- v`. -/
def setLife (t : TimerId) (v : BitVec 2) (b : Block) : Block :=
  match t with
  | .t0 => { b with t0 := { b.t0 with life := v } }
  | .t1 => { b with t1 := { b.t1 with life := v } }
  | .t2 => { b with t2 := { b.t2 with life := v } }

/-- `if LIFE[t] = from then LIFE[t] <- to`. -/
def stepLife (t : TimerId) (fromLife toLife : BitVec 2) (b : Block) : Block :=
  if lifeOf t b = fromLife then setLife t toLife b else b

/-- Every register of the owned set of T0 or T2 to 0; IFLG and LIFE are not in the set (spec/10_state.md R23). -/
def clearOwned8 (r : Timer8) : Timer8 :=
  { r with ctrl := 0, cnt := 0, ocr := 0, ocrl := 0, ien := 0, pdir := 0 }

/-- Every register of the owned set of T1 to 0 (spec/10_state.md R23). -/
def clearOwned16 (r : Timer16) : Timer16 :=
  { r with ctrla := 0, ctrlb := 0, cnt := 0, ocra := 0, ocrb := 0, ocrla := 0, ocrlb := 0, ien := 0, pdir := 0 }

/-- `for every register r in owned(t): r <- 0`. -/
def clearOwned (t : TimerId) (b : Block) : Block :=
  match t with
  | .t0 => { b with t0 := clearOwned8 b.t0 }
  | .t1 => { b with t1 := clearOwned16 b.t1 }
  | .t2 => { b with t2 := clearOwned8 b.t2 }

/-- The enable bit TINIT sets on an 8-bit timer (R124). -/
def enableBit8 (mode : TimerMode) : Nat :=
  match irqKind mode with
  | .ovf => 0
  | .cmp => 1

/-- The enable bit TINIT sets on T1 (R124). -/
def enableBit16 (mode : TimerMode) (ch : Channel) : Nat :=
  match irqKind mode, ch with
  | .ovf, _ => 0
  | .cmp, .a => 1
  | .cmp, .b => 2

/-- The effect of TINIT on T0 or T2 (spec/40_timer_config.md R122 to R124): zero first, then the register image. -/
def initTimer8 (mode : TimerMode) (clk : ClockPrescale) (com : CompareOutputMode) (ival cval : Half) (r : Timer8) :
    Timer8 :=
  let z := clearOwned8 r
  { z with
    ctrl := putField 3 (outputModeCode com) (putField 5 (modeCode mode) (putField 0 (clockCode clk) z.ctrl))
    cnt := mask8 ival
    ocr := mask8 cval
    ocrl := mask8 cval
    pdir := if isPwm mode then putBit 0 true z.pdir else z.pdir
    ien := putBit (enableBit8 mode) true z.ien
    life := lifeConfigured }

/-- The offset of the compare-output-mode field of a channel in `CTRLA` (spec/10_state.md R25). -/
def comOffset : Channel → Nat
  | .a => 6
  | .b => 4

/-- The pin bit of a channel in `PDIR[T1]` (spec/10_state.md R35). -/
def pinBit : Channel → Nat
  | .a => 0
  | .b => 1

/-- The compare write of TINIT on T1, buffer and latch together (R123). -/
def initCompare16 (mode : TimerMode) (ch : Channel) (cval : Half) (z : Timer16) : Timer16 :=
  match ch with
  | .a => { z with ocra := cval, ocrla := cval }
  | .b =>
    if pairsOnInit mode then
      { z with ocra := pairedPeriod cval, ocrla := pairedPeriod cval, ocrb := cval, ocrlb := cval }
    else
      { z with ocrb := cval, ocrlb := cval }

/-- The effect of TINIT on T1 with channel `ch` (spec/40_timer_config.md R122 to R124). -/
def initTimer16 (ch : Channel) (mode : TimerMode) (clk : ClockPrescale) (com : CompareOutputMode) (ival cval : Half)
    (r : Timer16) : Timer16 :=
  let z := initCompare16 mode ch cval (clearOwned16 r)
  { z with
    ctrla := putField (comOffset ch) (outputModeCode com) (putField 0 (modeCode mode) z.ctrla)
    ctrlb := putField 0 (clockCode clk) z.ctrlb
    cnt := ival
    pdir := if isPwm mode then putBit (pinBit ch) true z.pdir else z.pdir
    ien := putBit (enableBit16 mode ch) true z.ien
    life := lifeConfigured }

/-- The effect of TINIT on the compare channel it names. -/
def initUnit (u : CompareUnit) (mode : TimerMode) (clk : ClockPrescale) (com : CompareOutputMode) (ival cval : Half)
    (b : Block) : Block :=
  match u with
  | .t0 => { b with t0 := initTimer8 mode clk com ival cval b.t0 }
  | .t1 ch => { b with t1 := initTimer16 ch mode clk com ival cval b.t1 }
  | .t2 => { b with t2 := initTimer8 mode clk com ival cval b.t2 }

/-- The effect of TCMP on T1: buffers only; channel B writes the pair whatever the mode (spec/41_compare_update.md R142,
spec/90_conflicts.md C1). -/
def updateCompare16 (ch : Channel) (cval : Half) (r : Timer16) : Timer16 :=
  match ch with
  | .a => { r with ocra := cval }
  | .b => { r with ocra := pairedPeriod cval, ocrb := cval }

/-- The effect of TCMP: the compare buffers of one channel (R141, R142). -/
def updateCompare (u : CompareUnit) (cval : Half) (b : Block) : Block :=
  match u with
  | .t0 => { b with t0 := { b.t0 with ocr := mask8 cval } }
  | .t1 ch => { b with t1 := updateCompare16 ch cval b.t1 }
  | .t2 => { b with t2 := { b.t2 with ocr := mask8 cval } }

/-! ### External lines -/

/-- `ESC(l) <- v`, `v` an `edgeMode` ordinal; line 2 keeps bit 0 of it (spec/10_state.md R37). -/
def setEdgeSelect (l : Line) (v : BitVec 2) (e : ExtLines) : ExtLines :=
  match l with
  | .line0 => { e with esc0 := v }
  | .line1 => { e with esc1 := v }
  | .line2 => { e with esc2 := getField 0 1 v }

/-- The set XDEINIT clears and XINIT clears first: selector and enable (spec/43_external_interrupt.md R162, R163). -/
def clearLine (l : Line) (e : ExtLines) : ExtLines :=
  { setEdgeSelect l 0 e with eien := putBit (lineIndex l) false e.eien }

/-- The effect of XINIT on a line whose pull-up parameter is `pull` (R160). -/
def initLine (pull : Bool) (l : Line) (edge : EdgeMode) (e : ExtLines) : ExtLines :=
  let z := clearLine l e
  let z := { z with epdir := putBit (lineIndex l) false z.epdir }
  let z := { z with epup := if pull then putBit (lineIndex l) true z.epup else z.epup }
  let z := setEdgeSelect l (edgeCode edge) z
  { z with eien := putBit (lineIndex l) true z.eien, xlife := putBit (lineIndex l) true z.xlife }

/-- The effect of XDEINIT on a line (R163). -/
def deinitLine (l : Line) (e : ExtLines) : ExtLines :=
  let z := clearLine l e
  { z with xlife := putBit (lineIndex l) false z.xlife }

/-! ### Callback slots -/

/-- `CB[s]` (spec/10_state.md R43). -/
def slotOf (s : Source) (cb : Slots) : Half :=
  match s with
  | .timer0 => cb.timer0
  | .timer1 => cb.timer1
  | .timer2 => cb.timer2
  | .ext0 => cb.ext0
  | .ext1 => cb.ext1
  | .ext2 => cb.ext2

/-- `CB[s] <- h`, one indivisible write (spec/42_dispatch_registry.md R150). -/
def setSlot (s : Source) (h : Half) (cb : Slots) : Slots :=
  match s with
  | .timer0 => { cb with timer0 := h }
  | .timer1 => { cb with timer1 := h }
  | .timer2 => { cb with timer2 := h }
  | .ext0 => { cb with ext0 := h }
  | .ext1 => { cb with ext1 := h }
  | .ext2 => { cb with ext2 := h }

/-! ### The register read space -/

/-- The view of `SEQ` at address 0x46: bit 15 `busy`, bits 6:4 `src`, bits 1:0 `cause` (spec/10_state.md R44). -/
def seqStatus (q : Seq) : Half :=
  putField 15 (BitVec.ofBool q.busy) (putField 4 q.src (putField 0 q.cause 0))

/-- `Reg[a]`, none when `a` is unmapped: the complete map of spec/20_memory.md R72. Compare registers show the buffer,
never the latch (R170). -/
def readReg (a : BitVec 8) (b : Block) : Option Half :=
  match a with
  | 0x00#8 => some (zext16 b.t0.ctrl)
  | 0x01#8 => some (zext16 b.t0.cnt)
  | 0x02#8 => some (zext16 b.t0.ocr)
  | 0x03#8 => some (zext16 b.t0.ien)
  | 0x04#8 => some (zext16 b.t0.iflg)
  | 0x05#8 => some (zext16 b.t0.pdir)
  | 0x06#8 => some (zext16 b.t0.life)
  | 0x10#8 => some (zext16 b.t1.ctrla)
  | 0x11#8 => some (zext16 b.t1.ctrlb)
  | 0x12#8 => some b.t1.cnt
  | 0x13#8 => some b.t1.ocra
  | 0x14#8 => some b.t1.ocrb
  | 0x15#8 => some (zext16 b.t1.ien)
  | 0x16#8 => some (zext16 b.t1.iflg)
  | 0x17#8 => some (zext16 b.t1.pdir)
  | 0x18#8 => some (zext16 b.t1.life)
  | 0x20#8 => some (zext16 b.t2.ctrl)
  | 0x21#8 => some (zext16 b.t2.cnt)
  | 0x22#8 => some (zext16 b.t2.ocr)
  | 0x23#8 => some (zext16 b.t2.ien)
  | 0x24#8 => some (zext16 b.t2.iflg)
  | 0x25#8 => some (zext16 b.t2.pdir)
  | 0x26#8 => some (zext16 b.t2.life)
  | 0x30#8 => some (zext16 b.ext.esc0)
  | 0x31#8 => some (zext16 b.ext.esc1)
  | 0x32#8 => some (zext16 b.ext.esc2)
  | 0x33#8 => some (zext16 b.ext.eien)
  | 0x34#8 => some (zext16 b.ext.eiflg)
  | 0x35#8 => some (zext16 b.ext.epdir)
  | 0x36#8 => some (zext16 b.ext.epup)
  | 0x37#8 => some (zext16 b.ext.xlife)
  | 0x40#8 => some b.cb.timer0
  | 0x41#8 => some b.cb.timer1
  | 0x42#8 => some b.cb.timer2
  | 0x43#8 => some b.cb.ext0
  | 0x44#8 => some b.cb.ext1
  | 0x45#8 => some b.cb.ext2
  | 0x46#8 => some (seqStatus b.seq)
  | 0x47#8 => some b.seq.hnd
  | _ => none

/-! ### Events of the environment (spec/60_exceptions.md R186) -/

/-- `CNT[t] <- v`, the low W(t) bits of the value supplied. -/
def setCounter (t : TimerId) (v : Half) (b : Block) : Block :=
  match t with
  | .t0 => { b with t0 := { b.t0 with cnt := mask8 v } }
  | .t1 => { b with t1 := { b.t1 with cnt := v } }
  | .t2 => { b with t2 := { b.t2 with cnt := mask8 v } }

/-- Every latch of `t` takes its buffer, all at once (R186, spec/10_state.md R32). -/
def loadLatches (t : TimerId) (b : Block) : Block :=
  match t with
  | .t0 => { b with t0 := { b.t0 with ocrl := b.t0.ocr } }
  | .t1 => { b with t1 := { b.t1 with ocrla := b.t1.ocra, ocrlb := b.t1.ocrb } }
  | .t2 => { b with t2 := { b.t2 with ocrl := b.t2.ocr } }

/-- The timer of a compare channel. -/
def unitTimer : CompareUnit → TimerId
  | .t0 => .t0
  | .t1 _ => .t1
  | .t2 => .t2

/-- "Enabled iff CS[t] != 0" for the timer events; `ev_ext` is always enabled (R186). -/
def eventEnabled (e : Event) (b : Block) : Bool :=
  match e with
  | .count t _ => clockSelect t b ≠ 0
  | .wrap t => clockSelect t b ≠ 0
  | .ovf t => clockSelect t b ≠ 0
  | .cmp u => clockSelect (unitTimer u) b ≠ 0
  | .ext _ => true

/-- What an event writes, "nothing but what is shown" (R186). -/
def eventEffect (e : Event) (b : Block) : Block :=
  match e with
  | .count t v => setCounter t v b
  | .wrap t => loadLatches t b
  | .ovf t => setFlag (ovfCause t) b
  | .cmp u => setFlag (cmpCause u) b
  | .ext l => setFlag (extCause l) b

/-- An event proposed by the schedule: it occurs if it is enabled; one that is not enabled cannot occur and is dropped
(log entry 9). -/
def raiseEvent (e : Event) (s : State) : State :=
  if eventEnabled e s.block then quiet { s with block := eventEffect e s.block } else quiet s

/-! ### Taking an interrupt and returning from it (spec/60_exceptions.md R190 to R198) -/

/-- A dispatch entry for `c` is enabled: the sequencer is idle and `c` is requesting (R191, R198). -/
def entryEnabled (c : Cause) (b : Block) : Bool := !b.seq.busy && requesting c b

/-- TAKING AN INTERRUPT, the dispatch entry of R192 for the chosen cause `c`: with a handler, `SEQ` records source,
cause and handler, the callback port is driven and the flag stays; with an empty slot only the flag is cleared (R193). -/
def enterDispatch (c : Cause) (s : State) : State :=
  let h := slotOf (causeSource c) s.block.cb
  if h = 0 then
    quiet { s with block := clearFlag c s.block }
  else
    { s with
      block := { s.block with seq := { busy := true, src := sourceCode (causeSource c), cause := causeCode c, hnd := h } }
      ports := { response := none, call := some (callWord (causeSource c) h) } }

/-- THE RETURN: clears the flag of the cause `SEQ` names and makes the sequencer idle, nothing else (R153, R196, R197).
In a state whose `SEQ` names no cause, which R50 (h) rules out, there is no flag to clear (log entry 10). -/
def returnFromDispatch (b : Block) : Block :=
  match causeOf b.seq.src b.seq.cause with
  | some c => { clearFlag c b with seq := Seq.idle }
  | none => { b with seq := Seq.idle }

/-- A dispatch entry proposed by the schedule, the arbiter having chosen `c`: taken if it is enabled, else dropped, "no
entry enabled" (R194; log entries 3 and 9). -/
def dispatchMove (c : Cause) (s : State) : State :=
  if entryEnabled c s.block then enterDispatch c s else quiet s

/-- The arbiter's choice: the free number `n` picks one of `c :: cs`, any of which it may be (R194). -/
def arbitrate (n : Nat) (c : Cause) (cs : List Cause) : Cause :=
  ((c :: cs)[n % (cs.length + 1)]?).getD c

/-- The sequencer on its own, when no other agent moves: "an enabled entry is eventually taken" (R191; log entry 2), for
the cause that `Config.arb` chooses; else the step changes nothing. -/
def sequencerAlone (s : State) : State :=
  if s.block.seq.busy then quiet s
  else
    match requestingCauses s.block with
    | [] => quiet s
    | c :: cs => enterDispatch (arbitrate (Config.arb s.arbDraws) c cs) { s with arbDraws := s.arbDraws + 1 }

/-! ### Reset and the next move -/

/-- The reset input (spec/70_reset_and_hazards.md R220): every register of the block to its reset value. -/
def resetMove (s : State) : State := quiet { s with block := Block.reset }

/-- A word on the command port (R102 steps 1 and 2): a reserved opcode selects no command and is answered IGNORED
(R97); any other word is the command it decodes to. -/
def acceptWord (w : CommandWord) (s : State) : Turn :=
  match decode w with
  | .ok i => .command i s
  | .error _ => .done (respond .ignored 0 s)

/-- The next move, taken from the schedule; with none scheduled, the sequencer's own. -/
def nextTurn (s : State) : Turn :=
  match s.schedule with
  | [] => .done (sequencerAlone s)
  | .command w :: rest => acceptWord w { s with schedule := rest }
  | .event e :: rest => .done (raiseEvent e { s with schedule := rest })
  | .dispatch c :: rest => .done (dispatchMove c { s with schedule := rest })
  | .reset :: rest => .done (resetMove { s with schedule := rest })

end Sys2Proof.Machine
end

