-- ==== Sys2Proof/Machine/Compare.lean ====
section
/-! DEFINITION. The compare-register update command TCMP (spec/41_compare_update.md). -/

namespace Sys2Proof.Machine

open Sys2Proof

/-- TCMP (R140 to R143): on T0 and T2 `ch` is ignored whatever it holds; on T1 it must name a channel. -/
def execTcmp (tid ch : BitVec 2) (cval : Half) (s : State) : Result :=
  match timerOf tid with
  | some .t0 => perform (updateCompare .t0 cval s.block) s
  | some .t1 =>
    match channelOf ch with
    | some (some c) => perform (updateCompare (.t1 c) cval s.block) s
    | some none => ignore s
    | none => ignore s
  | some .t2 => perform (updateCompare .t2 cval s.block) s
  | none => ignore s

end Sys2Proof.Machine
end

