-- ==== Sys2Proof/Machine/External.lean ====
section
/-! DEFINITION. The external-interrupt line commands XINIT and XDEINIT (spec/43_external_interrupt.md). -/

namespace Sys2Proof.Machine

open Sys2Proof

/-- XINIT (R160 to R162), with the line's pull-up parameter (R161). -/
def execXinit (line edge : BitVec 2) (s : State) : Result :=
  match lineOf line with
  | some l =>
    if edgeSupported l (edgeOf edge) then
      perform { s.block with ext := initLine (Config.pullup (lineIndex l)) l (edgeOf edge) s.block.ext } s
    else raiseConfigError s
  | none => ignore s

/-- XDEINIT (R163). -/
def execXdeinit (line : BitVec 2) (s : State) : Result :=
  match lineOf line with
  | some l => perform { s.block with ext := deinitLine l s.block.ext } s
  | none => ignore s

end Sys2Proof.Machine
end

