-- ==== Sys2Proof/Machine/Read.lean ====
section
/-! DEFINITION. The register read-back command RDREG (spec/44_register_read.md). -/

namespace Sys2Proof.Machine

open Sys2Proof

/-- RDREG (R170, R171): the register's value in the state the command finds; no state changes. -/
def execRdreg (addr : BitVec 8) (s : State) : Result :=
  match readReg addr s.block with
  | some v => .next (respond .ok v s)
  | none => ignore s

end Sys2Proof.Machine
end

