-- ==== Sys2Proof/Machine/Registry.lean ====
section
/-! DEFINITION. The dispatch-registry commands SETCB and CBRET (spec/42_dispatch_registry.md). -/

namespace Sys2Proof.Machine

open Sys2Proof

/-- SETCB (R150, R151): one indivisible write of one slot. -/
def execSetcb (src : BitVec 3) (hnd : Half) (s : State) : Result :=
  match sourceOf src with
  | some x => perform { s.block with cb := setSlot x hnd s.block.cb } s
  | none => ignore s

/-- CBRET (R153, R154): the return of the outstanding handler, if there is one. -/
def execCbret (s : State) : Result :=
  if s.block.seq.busy then perform (returnFromDispatch s.block) s else ignore s

end Sys2Proof.Machine
end

