-- ==== Sys2Proof/Machine/Timer.lean ====
section
/-! DEFINITION. The timer configuration commands TINIT, TSTART, TSTOP, TDEINIT (spec/40_timer_config.md). -/

namespace Sys2Proof.Machine

open Sys2Proof

/-- TINIT (R120 to R124). The invalid codes are checked first (R121 step 1), then the pairing (steps 2 and 3). -/
def execTinit (tid mode : BitVec 2) (clk : BitVec 3) (com ch : BitVec 2) (ival cval : Half) (s : State) : Result :=
  match timerOf tid, clockOf clk, channelOf ch with
  | some t, some k, some c =>
    match unitOf t c with
    | some u => perform (initUnit u (modeOf mode) k (outputModeOf com) ival cval s.block) s
    | none => raiseConfigError s
  | _, _, _ => ignore s

/-- TSTART (R126): `CS[t] <- clk`; Stopped becomes Configured. -/
def execTstart (tid : BitVec 2) (clk : BitVec 3) (s : State) : Result :=
  match timerOf tid, clockOf clk with
  | some t, some k => perform (stepLife t lifeStopped lifeConfigured (setClockSelect t (clockCode k) s.block)) s
  | _, _ => ignore s

/-- TSTOP (R125): `CS[t] <- 0`; Configured becomes Stopped. -/
def execTstop (tid : BitVec 2) (s : State) : Result :=
  match timerOf tid with
  | some t => perform (stepLife t lifeConfigured lifeStopped (setClockSelect t 0 s.block)) s
  | none => ignore s

/-- TDEINIT (R128): the owned set to 0; Uninit. -/
def execTdeinit (tid : BitVec 2) (s : State) : Result :=
  match timerOf tid with
  | some t => perform (setLife t lifeUninit (clearOwned t s.block)) s
  | none => ignore s

end Sys2Proof.Machine
end

