-- ==== Sys2Proof/Machine/Dispatch.lean ====
section
/-! DEFINITION. One arm per command of spec/opcode_table.json, in the table's order. -/

namespace Sys2Proof.Machine

open Sys2Proof

def exec (i : Instr) (s : State) : Host.Outcome State Fault Refusal :=
  match i with
  | .tinit tid mode clk com ch ival cval => Sys2Proof.Machine.execTinit tid mode clk com ch ival cval s
  | .tstart tid clk => Sys2Proof.Machine.execTstart tid clk s
  | .tstop tid => Sys2Proof.Machine.execTstop tid s
  | .tdeinit tid => Sys2Proof.Machine.execTdeinit tid s
  | .tcmp tid ch cval => Sys2Proof.Machine.execTcmp tid ch cval s
  | .setcb src hnd => Sys2Proof.Machine.execSetcb src hnd s
  | .xinit line edge => Sys2Proof.Machine.execXinit line edge s
  | .xdeinit line => Sys2Proof.Machine.execXdeinit line s
  | .cbret => Sys2Proof.Machine.execCbret s
  | .rdreg addr => Sys2Proof.Machine.execRdreg addr s

end Sys2Proof.Machine
end

