-- ==== Sys2Proof/Machine/Step.lean ====
section
/-! DEFINITION. One step of the machine: the next move of some agent (spec/00_scope.md R7, spec/20_memory.md R80), a
command being executed by `exec`. -/

namespace Sys2Proof.Machine

open Sys2Proof

/-- One atomic step (R76). -/
def step (s : State) : Host.Outcome State Fault Refusal :=
  match nextTurn s with
  | .command i t => exec i t
  | .done t => .next t

/-- `s` with the command whose low `nbits` bits are those of `w`, every higher bit 0, as the host's next move: the block
fetches nothing (R21), a command runs because the host puts its word on the command port (R75; log entry 11). -/
def State.withFetchWord (s : State) (nbits w : Nat) : State :=
  { s with schedule := .command (BitVec.ofNat 64 (w % 2 ^ nbits)) :: s.schedule }

end Sys2Proof.Machine
end

