-- ==== Sys2Proof/Machine/Asm.lean ====
section
/-! DEFINITION. The textual form of commands (spec/30_encoding.md R103 to R105): mnemonics, operand symbols, numbers,
register names and the pseudo-instructions, as typed tokens with their spelling. It is no part of `step`. -/

namespace Sys2Proof.Machine

open Sys2Proof

/-- The mnemonics (R95, R103). -/
inductive Mnemonic where
  | tinit | tstart | tstop | tdeinit | tcmp | setcb | xinit | xdeinit | cbret | rdreg
deriving DecidableEq, Repr

/-- The spelling of a mnemonic. -/
def mnemonicText : Mnemonic → String
  | .tinit => "TINIT"
  | .tstart => "TSTART"
  | .tstop => "TSTOP"
  | .tdeinit => "TDEINIT"
  | .tcmp => "TCMP"
  | .setcb => "SETCB"
  | .xinit => "XINIT"
  | .xdeinit => "XDEINIT"
  | .cbret => "CBRET"
  | .rdreg => "RDREG"

/-- The operand symbols (R104). -/
inductive Sym where
  | t0 | t1 | t2
  | ovf | pcpwm | ctc | fpwm
  | noclk | div1 | div8 | div64 | div256 | div1024
  | disc | toggle | clear | set
  | dash | a | b
  | timer0 | timer1 | timer2 | ext0 | ext1 | ext2
  | low | any | fall | rise
deriving DecidableEq, Repr

/-- The spelling of an operand symbol (R104). -/
def symText : Sym → String
  | .t0 => "T0"
  | .t1 => "T1"
  | .t2 => "T2"
  | .ovf => "OVF"
  | .pcpwm => "PCPWM"
  | .ctc => "CTC"
  | .fpwm => "FPWM"
  | .noclk => "NOCLK"
  | .div1 => "DIV1"
  | .div8 => "DIV8"
  | .div64 => "DIV64"
  | .div256 => "DIV256"
  | .div1024 => "DIV1024"
  | .disc => "DISC"
  | .toggle => "TOGGLE"
  | .clear => "CLEAR"
  | .set => "SET"
  | .dash => "-"
  | .a => "A"
  | .b => "B"
  | .timer0 => "TIMER0"
  | .timer1 => "TIMER1"
  | .timer2 => "TIMER2"
  | .ext0 => "EXT0"
  | .ext1 => "EXT1"
  | .ext2 => "EXT2"
  | .low => "LOW"
  | .any => "ANY"
  | .fall => "FALL"
  | .rise => "RISE"

/-- The register names an `addr` operand may use (R104), after the registers of spec/20_memory.md R72. -/
inductive RegName where
  | t0ctrl | t0cnt | t0ocr | t0ien | t0iflg | t0pdir | t0life
  | t1ctrla | t1ctrlb | t1cnt | t1ocra | t1ocrb | t1ien | t1iflg | t1pdir | t1life
  | t2ctrl | t2cnt | t2ocr | t2ien | t2iflg | t2pdir | t2life
  | esc0 | esc1 | esc2 | eien | eiflg | epdir | epup | xlife
  | cbTimer0 | cbTimer1 | cbTimer2 | cbExt0 | cbExt1 | cbExt2
  | seq | seqHnd
deriving DecidableEq, Repr

/-- The spelling of a register name. R104 spells `T0.CTRL`, `T1.OCRA`, `X.EIEN`, `CB.EXT1`, `SEQ`, `SEQ.HND` "and so on";
the others follow these (log entry 14). -/
def regText : RegName → String
  | .t0ctrl => "T0.CTRL"
  | .t0cnt => "T0.CNT"
  | .t0ocr => "T0.OCR"
  | .t0ien => "T0.IEN"
  | .t0iflg => "T0.IFLG"
  | .t0pdir => "T0.PDIR"
  | .t0life => "T0.LIFE"
  | .t1ctrla => "T1.CTRLA"
  | .t1ctrlb => "T1.CTRLB"
  | .t1cnt => "T1.CNT"
  | .t1ocra => "T1.OCRA"
  | .t1ocrb => "T1.OCRB"
  | .t1ien => "T1.IEN"
  | .t1iflg => "T1.IFLG"
  | .t1pdir => "T1.PDIR"
  | .t1life => "T1.LIFE"
  | .t2ctrl => "T2.CTRL"
  | .t2cnt => "T2.CNT"
  | .t2ocr => "T2.OCR"
  | .t2ien => "T2.IEN"
  | .t2iflg => "T2.IFLG"
  | .t2pdir => "T2.PDIR"
  | .t2life => "T2.LIFE"
  | .esc0 => "X.ESC0"
  | .esc1 => "X.ESC1"
  | .esc2 => "X.ESC2"
  | .eien => "X.EIEN"
  | .eiflg => "X.EIFLG"
  | .epdir => "X.EPDIR"
  | .epup => "X.EPUP"
  | .xlife => "X.XLIFE"
  | .cbTimer0 => "CB.TIMER0"
  | .cbTimer1 => "CB.TIMER1"
  | .cbTimer2 => "CB.TIMER2"
  | .cbExt0 => "CB.EXT0"
  | .cbExt1 => "CB.EXT1"
  | .cbExt2 => "CB.EXT2"
  | .seq => "SEQ"
  | .seqHnd => "SEQ.HND"

/-- The address of a register (spec/20_memory.md R72). -/
def regAddr : RegName → BitVec 8
  | .t0ctrl => 0x00
  | .t0cnt => 0x01
  | .t0ocr => 0x02
  | .t0ien => 0x03
  | .t0iflg => 0x04
  | .t0pdir => 0x05
  | .t0life => 0x06
  | .t1ctrla => 0x10
  | .t1ctrlb => 0x11
  | .t1cnt => 0x12
  | .t1ocra => 0x13
  | .t1ocrb => 0x14
  | .t1ien => 0x15
  | .t1iflg => 0x16
  | .t1pdir => 0x17
  | .t1life => 0x18
  | .t2ctrl => 0x20
  | .t2cnt => 0x21
  | .t2ocr => 0x22
  | .t2ien => 0x23
  | .t2iflg => 0x24
  | .t2pdir => 0x25
  | .t2life => 0x26
  | .esc0 => 0x30
  | .esc1 => 0x31
  | .esc2 => 0x32
  | .eien => 0x33
  | .eiflg => 0x34
  | .epdir => 0x35
  | .epup => 0x36
  | .xlife => 0x37
  | .cbTimer0 => 0x40
  | .cbTimer1 => 0x41
  | .cbTimer2 => 0x42
  | .cbExt0 => 0x43
  | .cbExt1 => 0x44
  | .cbExt2 => 0x45
  | .seq => 0x46
  | .seqHnd => 0x47

/-- An operand: a symbol, a number, or a register name (R103, R104). -/
inductive Operand where
  | sym (x : Sym)
  | num (n : Nat)
  | reg (r : RegName)
deriving DecidableEq, Repr

/-- A number in place of a symbol, how an invalid code is written (R104); it must fit the field (log entry 14). -/
def numCode (w n : Nat) : Option (BitVec w) := if n < 2 ^ w then some (BitVec.ofNat w n) else none

/-- A numeric operand. -/
def numOperand (w : Nat) : Operand → Option (BitVec w)
  | .num n => numCode w n
  | .sym _ => none
  | .reg _ => none

/-- `tid` symbols (R104). -/
def tidOperand : Operand → Option (BitVec 2)
  | .sym .t0 => some 0
  | .sym .t1 => some 1
  | .sym .t2 => some 2
  | o => numOperand 2 o

/-- `mode` symbols (R104). -/
def modeOperand : Operand → Option (BitVec 2)
  | .sym .ovf => some 0
  | .sym .pcpwm => some 1
  | .sym .ctc => some 2
  | .sym .fpwm => some 3
  | o => numOperand 2 o

/-- `clk` symbols (R104). -/
def clkOperand : Operand → Option (BitVec 3)
  | .sym .noclk => some 0
  | .sym .div1 => some 1
  | .sym .div8 => some 2
  | .sym .div64 => some 3
  | .sym .div256 => some 4
  | .sym .div1024 => some 5
  | o => numOperand 3 o

/-- `com` symbols (R104). -/
def comOperand : Operand → Option (BitVec 2)
  | .sym .disc => some 0
  | .sym .toggle => some 1
  | .sym .clear => some 2
  | .sym .set => some 3
  | o => numOperand 2 o

/-- `ch` symbols (R104). -/
def chOperand : Operand → Option (BitVec 2)
  | .sym .dash => some 0
  | .sym .a => some 1
  | .sym .b => some 2
  | o => numOperand 2 o

/-- `src` symbols (R104). -/
def srcOperand : Operand → Option (BitVec 3)
  | .sym .timer0 => some 0
  | .sym .timer1 => some 1
  | .sym .timer2 => some 2
  | .sym .ext0 => some 3
  | .sym .ext1 => some 4
  | .sym .ext2 => some 5
  | o => numOperand 3 o

/-- `edge` symbols (R104). -/
def edgeOperand : Operand → Option (BitVec 2)
  | .sym .low => some 0
  | .sym .any => some 1
  | .sym .fall => some 2
  | .sym .rise => some 3
  | o => numOperand 2 o

/-- `addr`: a number or a register name (R104). -/
def addrOperand : Operand → Option (BitVec 8)
  | .reg r => some (regAddr r)
  | o => numOperand 8 o

/-- The command a line of assembler text stands for (R103); none if the operands are not those of its row. In TCMP for T0
and T2 the channel is written `-` (R104) and its field is 0 (R98). DESIGN CHOICE (log entry 22): a channel written there all
the same, `A`, `B` or a number, goes into the word as R103's row and V-TCMP steps 6 to 8 have it, although R98 says that an
assembler writes 0 in that field; the block does not look at it either way. -/
def assemble : Mnemonic → List Operand → Option Instr
  | .tinit, [t, m, k, iv, cv, co, c] => do
    return .tinit (← tidOperand t) (← modeOperand m) (← clkOperand k) (← comOperand co) (← chOperand c)
      (← numOperand 16 iv) (← numOperand 16 cv)
  | .tstart, [t, k] => do return .tstart (← tidOperand t) (← clkOperand k)
  | .tstop, [t] => do return .tstop (← tidOperand t)
  | .tdeinit, [t] => do return .tdeinit (← tidOperand t)
  | .tcmp, [t, cv, c] => do return .tcmp (← tidOperand t) (← chOperand c) (← numOperand 16 cv)
  | .setcb, [x, h] => do return .setcb (← srcOperand x) (← numOperand 16 h)
  | .xinit, [l, e] => do return .xinit (← numOperand 2 l) (← edgeOperand e)
  | .xdeinit, [l] => do return .xdeinit (← numOperand 2 l)
  | .cbret, [] => some .cbret
  | .rdreg, [a] => do return .rdreg (← addrOperand a)
  | _, _ => none

/-- The pseudo-instructions (R105). -/
inductive Pseudo where
  | timerInit | timerStart | timerStop | timerDeinit | timerChangeCompareValue | timerSetCallback
  | externalInterruptInit | externalInterruptDeinit | externalInterruptSetCallback
  | clrcb
deriving DecidableEq, Repr

/-- The spelling of a pseudo-instruction (R105). -/
def pseudoText : Pseudo → String
  | .timerInit => "Timer.init"
  | .timerStart => "Timer.start"
  | .timerStop => "Timer.stop"
  | .timerDeinit => "Timer.deinit"
  | .timerChangeCompareValue => "Timer.changeCompareValue"
  | .timerSetCallback => "Timer.setCallback"
  | .externalInterruptInit => "ExternalInterrupt.init"
  | .externalInterruptDeinit => "ExternalInterrupt.deinit"
  | .externalInterruptSetCallback => "ExternalInterrupt.setCallback"
  | .clrcb => "CLRCB"

/-- `TIMERt` for the timer operand `t` (R105). -/
def timerSourceOperand : Operand → Option Operand
  | .sym .t0 => some (.sym .timer0)
  | .sym .t1 => some (.sym .timer1)
  | .sym .t2 => some (.sym .timer2)
  | _ => none

/-- `EXTl` for the line operand `l` (R105). -/
def lineSourceOperand : Operand → Option Operand
  | .num 0 => some (.sym .ext0)
  | .num 1 => some (.sym .ext1)
  | .num 2 => some (.sym .ext2)
  | _ => none

/-- The command a pseudo-instruction is "an exact alias" of (R105). -/
def assemblePseudo : Pseudo → List Operand → Option Instr
  | .timerInit, ops => assemble .tinit ops
  | .timerStart, ops => assemble .tstart ops
  | .timerStop, ops => assemble .tstop ops
  | .timerDeinit, ops => assemble .tdeinit ops
  | .timerChangeCompareValue, ops => assemble .tcmp ops
  | .timerSetCallback, [t, h] => do assemble .setcb [← timerSourceOperand t, h]
  | .externalInterruptInit, ops => assemble .xinit ops
  | .externalInterruptDeinit, ops => assemble .xdeinit ops
  | .externalInterruptSetCallback, [l, h] => do assemble .setcb [← lineSourceOperand l, h]
  | .clrcb, [x] => assemble .setcb [x, .num 0]
  | _, _ => none

end Sys2Proof.Machine
end

