-- ==== Sys2Proof/Machine/Boundary.lean ====
section
/-! DEFINITION. The signals at the boundary (spec/10_state.md R45), "each a plain copy of state, with no behaviour of its
own": what the counter hardware, the pin logic and the pad logic see. What they make of it is outside the block
(spec/00_scope.md R5). The host's two ports are `State.ports`. -/

namespace Sys2Proof.Machine

open Sys2Proof

/-- What the counter hardware of an 8-bit timer sees (R45). -/
structure CounterOut8 where
  cs    : BitVec 3
  wgm   : BitVec 2
  com   : BitVec 2
  foc   : Bool
  latch : BitVec 8
  cnt   : BitVec 8
deriving DecidableEq, Repr

/-- What the counter hardware of T1 sees (R45). -/
structure CounterOut16 where
  cs     : BitVec 3
  wgm    : BitVec 2
  coma   : BitVec 2
  comb   : BitVec 2
  foca   : Bool
  focb   : Bool
  latchA : BitVec 16
  latchB : BitVec 16
  cnt    : BitVec 16
deriving DecidableEq, Repr

/-- What the pin logic sees (R45). -/
structure PinOut where
  pdir0 : BitVec 1
  pdir1 : BitVec 2
  pdir2 : BitVec 1
  epdir : BitVec 3
  epup  : BitVec 3
deriving DecidableEq, Repr

/-- R45 with the fields of `CTRL` (R24). -/
def counterOut8 (r : Timer8) : CounterOut8 :=
  { cs := getField 0 3 r.ctrl, wgm := getField 5 2 r.ctrl, com := getField 3 2 r.ctrl, foc := getBit 7 r.ctrl,
    latch := r.ocrl, cnt := r.cnt }

/-- R45 with the fields of `CTRLA` and `CTRLB` (R25, R26). -/
def counterOut16 (r : Timer16) : CounterOut16 :=
  { cs := getField 0 3 r.ctrlb, wgm := getField 0 2 r.ctrla, coma := getField 6 2 r.ctrla, comb := getField 4 2 r.ctrla,
    foca := getBit 3 r.ctrla, focb := getBit 2 r.ctrla, latchA := r.ocrla, latchB := r.ocrlb, cnt := r.cnt }

/-- R45. -/
def pinOut (b : Block) : PinOut :=
  { pdir0 := b.t0.pdir, pdir1 := b.t1.pdir, pdir2 := b.t2.pdir, epdir := b.ext.epdir, epup := b.ext.epup }

/-- The edge mode the pad logic of a line reads from its `ESC` output; line 2 has a 1-bit selector (R37, R45). -/
def padMode (l : Line) (b : Block) : EdgeMode :=
  match l with
  | .line0 => edgeOf b.ext.esc0
  | .line1 => edgeOf b.ext.esc1
  | .line2 => if b.ext.esc2 = 0 then .falling else .rising

/-- The contract of the pad logic (spec/60_exceptions.md R188): may `ev_ext` of a line in this mode be raised when its
pin goes from `before` to `after` (true is high)? A premise for claims about a particular pad; the block neither looks at
the pin nor checks it, and `ev_ext` stays unconstrained in `step` (log entry 13). -/
def padRaises (m : EdgeMode) (before after : Bool) : Bool :=
  match m with
  | .lowLevel => !after
  | .anyChange => before != after
  | .falling => before && !after
  | .rising => !before && after

end Sys2Proof.Machine
end

