-- ==== Sys2Proof/Safety.lean ====
section
/-! DEFINITION. The terms claims are stated in: the standing invariants of spec/10_state.md R50, quiescence
(spec/00_scope.md R14), which move a step makes, and the host's duties (R13, spec/70_reset_and_hazards.md R230, R231,
R233) as named premises. Nothing here restricts `step`. -/

namespace Sys2Proof.Machine

open Sys2Proof

/-! ### The standing invariants (R50) -/

/-- R50 (a): every FOC bit is 0. -/
abbrev FocClear (b : Block) : Prop :=
  getBit 7 b.t0.ctrl = false ∧ getBit 3 b.t1.ctrla = false ∧ getBit 2 b.t1.ctrla = false ∧ getBit 7 b.t2.ctrl = false

/-- R50 (b): bits 7:3 of `CTRLB[T1]` are 0. -/
abbrev ReservedClear (b : Block) : Prop := getField 3 5 b.t1.ctrlb = 0#5

/-- R50 (c): every `CS` field is at most 5. -/
abbrev ClocksLegal (b : Block) : Prop :=
  (clockSelect .t0 b).toNat ≤ 5 ∧ (clockSelect .t1 b).toNat ≤ 5 ∧ (clockSelect .t2 b).toNat ≤ 5

/-- R50 (d): `EPDIR` is 0. -/
abbrev LinesAreInputs (b : Block) : Prop := b.ext.epdir = 0#3

/-- R50 (e): at most one bit of `IEN[t]` is 1. -/
abbrev OneEnable (b : Block) : Prop :=
  b.t0.ien ∈ [0#2, 1#2, 2#2] ∧ b.t1.ien ∈ [0#3, 1#3, 2#3, 4#3] ∧ b.t2.ien ∈ [0#2, 1#2, 2#2]

/-- R50 (f): `OCR[T0]`, `OCR[T2]` and their latches are at most 255. -/
abbrev ComparesInRange (b : Block) : Prop :=
  b.t0.ocr.toNat ≤ 255 ∧ b.t0.ocrl.toNat ≤ 255 ∧ b.t2.ocr.toNat ≤ 255 ∧ b.t2.ocrl.toNat ≤ 255

/-- R50 (g): `LIFE[t]` is at most 2. -/
abbrev LivesLegal (b : Block) : Prop :=
  (lifeOf .t0 b).toNat ≤ 2 ∧ (lifeOf .t1 b).toNat ≤ 2 ∧ (lifeOf .t2 b).toNat ≤ 2

/-- R50 (h): an idle `SEQ` is all 0; a busy one has a handler and names a cause that exists. -/
abbrev SeqLegal (b : Block) : Prop :=
  (b.seq.busy = false → b.seq.src = 0#3 ∧ b.seq.cause = 0#2 ∧ b.seq.hnd = 0#16) ∧
  (b.seq.busy = true → b.seq.hnd ≠ 0#16 ∧ (causeOf b.seq.src b.seq.cause).isSome = true)

/-- The standing invariants of R50, (a) to (h). -/
abbrev Standing (b : Block) : Prop :=
  FocClear b ∧ ReservedClear b ∧ ClocksLegal b ∧ LinesAreInputs b ∧ OneEnable b ∧ ComparesInRange b ∧ LivesLegal b ∧
    SeqLegal b

/-- Every register of the owned set of `t` is 0 (R23). -/
abbrev OwnedZero (t : TimerId) (b : Block) : Prop :=
  match t with
  | .t0 => b.t0.ctrl = 0 ∧ b.t0.cnt = 0 ∧ b.t0.ocr = 0 ∧ b.t0.ocrl = 0 ∧ b.t0.ien = 0 ∧ b.t0.pdir = 0
  | .t1 => b.t1.ctrla = 0 ∧ b.t1.ctrlb = 0 ∧ b.t1.cnt = 0 ∧ b.t1.ocra = 0 ∧ b.t1.ocrb = 0 ∧ b.t1.ocrla = 0 ∧
      b.t1.ocrlb = 0 ∧ b.t1.ien = 0 ∧ b.t1.pdir = 0
  | .t2 => b.t2.ctrl = 0 ∧ b.t2.cnt = 0 ∧ b.t2.ocr = 0 ∧ b.t2.ocrl = 0 ∧ b.t2.ien = 0 ∧ b.t2.pdir = 0

/-- R50 (i), which holds under the lifecycle duty of R230: an Uninit timer has an all-zero owned set. -/
abbrev UninitIsZero (b : Block) : Prop :=
  (lifeOf .t0 b = 0#2 → OwnedZero .t0 b) ∧ (lifeOf .t1 b = 0#2 → OwnedZero .t1 b) ∧
    (lifeOf .t2 b = 0#2 → OwnedZero .t2 b)

/-- The owned set of `t` holds the same values in both blocks (R23). -/
abbrev OwnedEqual (t : TimerId) (b c : Block) : Prop :=
  match t with
  | .t0 => b.t0.ctrl = c.t0.ctrl ∧ b.t0.cnt = c.t0.cnt ∧ b.t0.ocr = c.t0.ocr ∧ b.t0.ocrl = c.t0.ocrl ∧
      b.t0.ien = c.t0.ien ∧ b.t0.pdir = c.t0.pdir
  | .t1 => b.t1.ctrla = c.t1.ctrla ∧ b.t1.ctrlb = c.t1.ctrlb ∧ b.t1.cnt = c.t1.cnt ∧ b.t1.ocra = c.t1.ocra ∧
      b.t1.ocrb = c.t1.ocrb ∧ b.t1.ocrla = c.t1.ocrla ∧ b.t1.ocrlb = c.t1.ocrlb ∧ b.t1.ien = c.t1.ien ∧
      b.t1.pdir = c.t1.pdir
  | .t2 => b.t2.ctrl = c.t2.ctrl ∧ b.t2.cnt = c.t2.cnt ∧ b.t2.ocr = c.t2.ocr ∧ b.t2.ocrl = c.t2.ocrl ∧
      b.t2.ien = c.t2.ien ∧ b.t2.pdir = c.t2.pdir

/-- The pairing of T1's compare registers, buffers and latches both (R31, R32). -/
abbrev Paired (b : Block) : Prop :=
  b.t1.ocra = b.t1.ocrb + 1#16 ∧ b.t1.ocrla = b.t1.ocrlb + 1#16

/-- Quiescent: the sequencer is idle and no cause is both pending and enabled (R14). -/
abbrev Quiescent (b : Block) : Prop := b.seq.busy = false ∧ requestingCauses b = []

/-- No timer is clocked, no cause is enabled and the sequencer is idle, as after reset (R220, R221). -/
abbrev Dormant (b : Block) : Prop :=
  clockSelect .t0 b = 0 ∧ clockSelect .t1 b = 0 ∧ clockSelect .t2 b = 0 ∧
    b.t0.ien = 0 ∧ b.t1.ien = 0 ∧ b.t2.ien = 0 ∧ b.ext.eien = 0 ∧ b.seq.busy = false

/-! ### Which move a step makes -/

/-- The command the next step executes, if its move is a command word that selects one. -/
def currentCommand (s : State) : Option Instr :=
  match s.schedule with
  | .command w :: _ => (decode w).toOption
  | _ => none

/-- The next step is a reset. -/
def resetNext (s : State) : Bool :=
  match s.schedule with
  | .reset :: _ => true
  | _ => false

/-- The event the next step proposes, if its move is an event. -/
def eventNext (s : State) : Option Event :=
  match s.schedule with
  | .event e :: _ => some e
  | _ => none

/-- The next step can only be a dispatch entry for `c`: one is scheduled for that very cause, or nothing is scheduled and
the sequencer chooses (R194). -/
def EntryNext (c : Cause) (s : State) : Prop := s.schedule = [] ∨ ∃ rest, s.schedule = .dispatch c :: rest

/-! ### The host's duties, as premises

The rows of R13 with a duty: the host waits for each response (in the model it can do nothing else: a step takes one word and
answers it); the callback row is `ReturnDuty` (CBRET once per call), `HandlerEnds` (bounded time) and `NoStrayReturn`;
compare update is `OneChannelDuty` (either channel) and `ChannelBDuty`; lifecycle is `LifecycleDuty`. The two records below
are what a host knows of its own past, no state of the block: `step` neither reads nor writes them (log entry 16). -/

/-- The host's record of the callback port: how many calls it has received, which are numbered from 0 in that order, and
the calls it still owes a CBRET. -/
structure CallRecord where
  called : Nat
  owing  : List Nat
deriving DecidableEq, Repr

/-- The host's record of T1: the channel and mode of the TINIT in force, if there is one. The block itself "does not remember
the channel" (R231). -/
abbrev T1Record := Option (Channel × TimerMode)

/-- The host before any call. -/
def noCalls : CallRecord := { called := 0, owing := [] }

/-- The record after the step from `s` to `t`, its command sent on behalf of the handler of call `sender`: a CBRET pays one
debt of that call, a driven callback port is a new call, and a reset abandons what was owed (R222). -/
def callsAfter (sender : Nat) (s t : State) (g : CallRecord) : CallRecord :=
  if resetNext s = true then { g with owing := [] }
  else if currentCommand s = some .cbret then { g with owing := g.owing.erase sender }
  else if t.ports.call.isSome then { called := g.called + 1, owing := g.called :: g.owing }
  else g

/-- The record after the step from `s`: a TINIT of T1 that is performed (R121) sets it, a TDEINIT of T1 and a reset clear
it. -/
def t1After (s : State) (r : T1Record) : T1Record :=
  if resetNext s = true then none
  else
    match currentCommand s with
    | some (.tinit tid mode clk _ ch _ _) =>
      match timerOf tid, clockOf clk, channelOf ch with
      | some .t1, some _, some (some y) => some (y, modeOf mode)
      | _, _, _ => r
    | some (.tdeinit tid) => if timerOf tid = some .t1 then none else r
    | _ => r

/-- The record and the sequencer agree: while it is busy exactly the latest call is owed a CBRET, while it is idle none. -/
def CallsMatch (g : CallRecord) (b : Block) : Prop :=
  (b.seq.busy = true → ∃ n, g.called = n + 1 ∧ g.owing = [n]) ∧ (b.seq.busy = false → g.owing = [])

/-- The record and the compare registers of T1 agree: on channel A nothing has entered channel B's registers, on channel B
in a pairing mode buffers and latches are paired (R31, R231). -/
def T1Match (r : T1Record) (b : Block) : Prop :=
  match r with
  | none => True
  | some (.a, _) => b.t1.ocrb = 0 ∧ b.t1.ocrlb = 0
  | some (.b, m) => pairsOnInit m = true → Paired b

/-- R230: TSTART, TSTOP and TCMP are sent only to a timer whose lifecycle is not Uninit. -/
def LifecycleDuty (s : State) : Prop :=
  match currentCommand s with
  | some (.tstart tid _) => ∀ t, timerOf tid = some t → lifeOf t s.block ≠ 0#2
  | some (.tstop tid) => ∀ t, timerOf tid = some t → lifeOf t s.block ≠ 0#2
  | some (.tcmp tid _ _) => ∀ t, timerOf tid = some t → lifeOf t s.block ≠ 0#2
  | _ => True

/-- R13, R231: a TCMP of T1 passes the channel, A or B, that the TINIT in force configured. -/
def OneChannelDuty (r : T1Record) (s : State) : Prop :=
  match currentCommand s with
  | some (.tcmp tid ch _) => timerOf tid = some .t1 → ∃ y m, r = some (y, m) ∧ channelOf ch = some (some y)
  | _ => True

/-- R231: T1 stays on channel B in a pairing mode. No command of this step re-initialises it otherwise, tears it down or
updates channel A; a TINIT of T1 must be channel B in Compare or FastPWM. -/
def ChannelBDuty (s : State) : Prop :=
  match currentCommand s with
  | some (.tinit tid mode _ _ ch _ _) => tid = 1#2 → ch = 2#2 ∧ (mode = 2#2 ∨ mode = 3#2)
  | some (.tdeinit tid) => tid ≠ 1#2
  | some (.tcmp tid ch _) => tid = 1#2 → ch ≠ 1#2
  | _ => True

/-- R13, R233: CBRET at most once per call. The handler of call `sender` sends one only while that call is owed one, so a
second one breaks the duty whether the sequencer is idle or another handler has been entered meanwhile. -/
def ReturnDuty (g : CallRecord) (sender : Nat) (s : State) : Prop :=
  currentCommand s = some .cbret → sender ∈ g.owing

/-- R13, R233: CBRET at least once, in bounded time. A CBRET is among the next `n` moves. -/
def HandlerEnds (n : Nat) (ms : List Move) : Prop :=
  ∃ pre w post, ms = pre ++ .command w :: post ∧ pre.length < n ∧ decode w = .ok .cbret

/-- R233: no CBRET while no handler is outstanding. -/
def NoStrayReturn (s : State) : Prop := currentCommand s = some .cbret → s.block.seq.busy = true

/-- A host that never ends the outstanding handler (R207): no move in the schedule is a CBRET or a reset. -/
def NeverReturns (ms : List Move) : Prop :=
  ∀ m ∈ ms, m ≠ .reset ∧ ∀ w, m = .command w → decode w ≠ .ok .cbret

/-! ### Synchronous errors by operand code -/

/-- CE1, CE2 and CE3 of spec/60_exceptions.md R181, over the codes of the word. -/
def pairingError : Instr → Bool
  | .tinit tid _ _ _ ch _ _ => ((tid == 0#2 || tid == 2#2) && (ch == 1#2 || ch == 2#2)) || (tid == 1#2 && ch == 0#2)
  | .tstart _ _ => false
  | .tstop _ => false
  | .tdeinit _ => false
  | .tcmp _ _ _ => false
  | .setcb _ _ => false
  | .xinit line edge => line == 2#2 && (edge == 0#2 || edge == 1#2)
  | .xdeinit _ => false
  | .cbret => false
  | .rdreg _ => false

/-- The read addresses R171 calls unmapped. -/
def unmapped (a : BitVec 8) : Bool :=
  (0x07 ≤ a.toNat && a.toNat ≤ 0x0F) || (0x19 ≤ a.toNat && a.toNat ≤ 0x1F) || (0x27 ≤ a.toNat && a.toNat ≤ 0x2F) ||
    (0x38 ≤ a.toNat && a.toNat ≤ 0x3F) || 0x48 ≤ a.toNat

/-- The causes of IGNORED a decoded command has (R182): an invalid code, an unmapped address, no handler outstanding. -/
def ignoredCause (i : Instr) (b : Block) : Bool :=
  !i.wellFormed ||
    (match i with
      | .rdreg a => unmapped a
      | .cbret => !b.seq.busy
      | _ => false)

/-! ### Shapes of next states, and the closed form of R129 -/

/-- `s` after a command that leaves the block at `b` and drives the response word `r`: nothing else changes. -/
def answered (r : ResponseWord) (b : Block) (s : State) : State :=
  { s with block := b, ports := { response := some r, call := none } }

/-- `s` after a move that is no command: the block at `b`, no port driven, `rest` still to come. -/
def moved (b : Block) (rest : List Move) (s : State) : State :=
  { s with block := b, ports := { response := none, call := none }, schedule := rest }

/-- The state `k` steps on, if none of them stops. -/
def after (k : Nat) (s : State) : Result := Host.Core.run Sys2Proof.core k s

/-- `b` with every interrupt flag and `SEQ` taken from `f`: what remains to compare when only these may differ. -/
def withFlagsAndSeqOf (f b : Block) : Block :=
  { b with
    t0 := { b.t0 with iflg := f.t0.iflg }
    t1 := { b.t1 with iflg := f.t1.iflg }
    t2 := { b.t2 with iflg := f.t2.iflg }
    ext := { b.ext with eiflg := f.ext.eiflg }
    seq := f.seq }

/-- The interrupt source of a timer (spec/60_exceptions.md R184). -/
def timerSource : TimerId → Source
  | .t0 => .timer0
  | .t1 => .timer1
  | .t2 => .timer2

/-- `CNT[t]`, zero-extended. -/
def counterOf (t : TimerId) (b : Block) : Half :=
  match t with
  | .t0 => b.t0.cnt.setWidth 16
  | .t1 => b.t1.cnt
  | .t2 => b.t2.cnt.setWidth 16

/-- The compare buffer of a channel, zero-extended (R32). -/
def bufferOf (u : CompareUnit) (b : Block) : Half :=
  match u with
  | .t0 => b.t0.ocr.setWidth 16
  | .t1 .a => b.t1.ocra
  | .t1 .b => b.t1.ocrb
  | .t2 => b.t2.ocr.setWidth 16

/-- The compare latch of a channel, zero-extended (R32). -/
def latchOf (u : CompareUnit) (b : Block) : Half :=
  match u with
  | .t0 => b.t0.ocrl.setWidth 16
  | .t1 .a => b.t1.ocrla
  | .t1 .b => b.t1.ocrlb
  | .t2 => b.t2.ocrl.setWidth 16

/-- The next step executes a TINIT or a TDEINIT that names timer `t`. -/
def configuresNext (t : TimerId) (s : State) : Bool :=
  match currentCommand s with
  | some (.tinit tid _ _ _ _ _ _) => timerOf tid == some t
  | some (.tdeinit tid) => timerOf tid == some t
  | _ => false

/-- The image R129 gives for T0 and T2; `flags` is `IFLG[t]`, which TINIT does not write. -/
def tinitImage8 (mode : BitVec 2) (clk : BitVec 3) (com : BitVec 2) (ival cval : Half) (flags : BitVec 2) : Timer8 where
  ctrl := mode.setWidth 8 <<< 5 ||| com.setWidth 8 <<< 3 ||| clk.setWidth 8
  cnt := ival.setWidth 8
  ocr := cval.setWidth 8
  ocrl := cval.setWidth 8
  ien := if mode = 0#2 then 0b01#2 else 0b10#2
  iflg := flags
  pdir := if mode = 1#2 ∨ mode = 3#2 then 1#1 else 0#1
  life := 1#2

/-- The image R129 gives for T1 with channel A. -/
def tinitImageA (mode : BitVec 2) (clk : BitVec 3) (com : BitVec 2) (ival cval : Half) (flags : BitVec 3) : Timer16 where
  ctrla := com.setWidth 8 <<< 6 ||| mode.setWidth 8
  ctrlb := clk.setWidth 8
  cnt := ival
  ocra := cval
  ocrb := 0
  ocrla := cval
  ocrlb := 0
  ien := if mode = 0#2 then 0b001#3 else 0b010#3
  iflg := flags
  pdir := if mode = 1#2 ∨ mode = 3#2 then 0b01#2 else 0b00#2
  life := 1#2

/-- The image R129 gives for T1 with channel B: paired in Compare and FastPWM only. -/
def tinitImageB (mode : BitVec 2) (clk : BitVec 3) (com : BitVec 2) (ival cval : Half) (flags : BitVec 3) : Timer16 where
  ctrla := com.setWidth 8 <<< 4 ||| mode.setWidth 8
  ctrlb := clk.setWidth 8
  cnt := ival
  ocra := if mode = 2#2 ∨ mode = 3#2 then cval + 1#16 else 0
  ocrb := cval
  ocrla := if mode = 2#2 ∨ mode = 3#2 then cval + 1#16 else 0
  ocrlb := cval
  ien := if mode = 0#2 then 0b001#3 else 0b100#3
  iflg := flags
  pdir := if mode = 1#2 ∨ mode = 3#2 then 0b10#2 else 0b00#2
  life := 1#2

end Sys2Proof.Machine
end

