-- ==== Sys2Proof/Certificates/Slice0/Obligations.lean ====
section
/-! DEFINITION. The statements for the provers. Each docstring names the rule of spec/ it formalises. A command's response
word is 0x00000000 for OK, 0x40000000 for CONFIG_ERROR and 0x80000000 for IGNORED (spec/30_encoding.md R99, R100). -/

open Sys2Proof Sys2Proof.Machine

/-! ### Encoding and decoding (spec/30_encoding.md) -/

/-- R91, R95: every command, with every operand at every value of its field, is read back from its word (that
the word of a TCMP on T0 or T2 keeps its `ch` is the model's choice, log entry 22). -/
def Obligations.DecodeOfEncode : Prop := ∀ i : Instr, decode (encode i) = .ok i

/-- R98: reserved bits and unused fields are not looked at, the command is that of the word with 0 in them, and the encoder
writes 0 there; `ch` of TCMP on T0 and T2 is not looked at either, and the assembler writes 0 there for R104's `-` (that it
puts a code that is written all the same into the word is the model's choice, log entry 22). -/
def Obligations.UnusedBitsAreIgnored : Prop :=
  (∀ (w : CommandWord) (i : Instr), decode w = .ok i →
    encode i = w &&& usedMask i ∧ ∀ v : CommandWord, v &&& usedMask i = w &&& usedMask i → decode v = .ok i) ∧
  (∀ (ch : BitVec 2) (cval : Half) (s : State),
    exec (.tcmp 0#2 ch cval) s = exec (.tcmp 0#2 0#2 cval) s ∧ exec (.tcmp 2#2 ch cval) s = exec (.tcmp 2#2 0#2 cval) s) ∧
  (∀ cval : Half,
    assemble .tcmp [.sym .t0, .num cval.toNat, .sym .dash] = some (.tcmp 0#2 0#2 cval) ∧
    assemble .tcmp [.sym .t2, .num cval.toNat, .sym .dash] = some (.tcmp 2#2 0#2 cval))

/-- R97: the six reserved opcodes select no command and are answered IGNORED with no register changed; every other opcode
selects a command, and no word traps. -/
def Obligations.ReservedOpcodesAreNoOps : Prop :=
  ∀ (w : CommandWord) (rest : List Move) (s : State), s.schedule = .command w :: rest →
    (w.extractLsb' 60 4 ∈ [0x0#4, 0xB#4, 0xC#4, 0xD#4, 0xE#4, 0xF#4] →
      step s = .next (answered 0x80000000#32 s.block { s with schedule := rest })) ∧
    (w.extractLsb' 60 4 ∉ [0x0#4, 0xB#4, 0xC#4, 0xD#4, 0xE#4, 0xF#4] → ∃ i, decode w = .ok i) ∧
    ∃ t, step s = .next t

/-- R96: an invalid code in a used field makes the command a no-op answered IGNORED, whatever the other operands, so
before any pairing check; the cases are those of `Instr.wellFormed`. -/
def Obligations.InvalidCodesAreNoOps : Prop :=
  ∀ (i : Instr) (s : State), i.wellFormed = false → exec i s = .next (answered 0x80000000#32 s.block s)

/-- Words of spec/95_test_vectors.md and of the rules' examples decode to the commands they stand for. -/
def Obligations.DocumentedWordsDecode : Prop :=
  decode 0x164C000000630000#64 = .ok (.tinit 1#2 2#2 2#3 1#2 2#2 0#16 99#16) ∧
  decode 0x2040000000000000#64 = .ok (.tstart 0#2 2#3) ∧
  decode 0x33FFFFFFFFFFFFFF#64 = .ok (.tstop 0#2) ∧
  decode 0x4800000000000000#64 = .ok (.tdeinit 2#2) ∧
  decode 0x5404000000630000#64 = .ok (.tcmp 1#2 2#2 99#16) ∧
  decode 0x6800000000001234#64 = .ok (.setcb 4#3 0x1234#16) ∧
  decode 0x7600000000000000#64 = .ok (.xinit 1#2 2#2) ∧
  decode 0x8400000000000000#64 = .ok (.xdeinit 1#2) ∧
  decode 0x9000000000000000#64 = .ok .cbret ∧
  decode 0xAFFFFFFFFFFFFF12#64 = .ok (.rdreg 0x12#8)

/-- R103 to R105: lines of assembler text as typed tokens (log entry 14), one per row of R103's table and a
pseudo-instruction, and their words. -/
def Obligations.AssemblerLinesGiveTheirWords : Prop :=
  (assemble .tinit [.sym .t0, .sym .fpwm, .sym .div8, .num 0, .num 0, .sym .clear, .sym .dash]).map encode =
    some 0x1350000000000000#64 ∧
  (assemble .tstart [.sym .t1, .sym .div64]).map encode = some 0x2460000000000000#64 ∧
  (assemble .tstop [.num 3]).map encode = some 0x3C00000000000000#64 ∧
  (assemble .tdeinit [.sym .t2]).map encode = some 0x4800000000000000#64 ∧
  (assemble .tcmp [.sym .t1, .num 99, .sym .b]).map encode = some 0x5404000000630000#64 ∧
  (assemble .setcb [.sym .ext1, .num 0x1234]).map encode = some 0x6800000000001234#64 ∧
  (assemble .xinit [.num 1, .sym .fall]).map encode = some 0x7600000000000000#64 ∧
  (assemble .xdeinit [.num 1]).map encode = some 0x8400000000000000#64 ∧
  (assemble .cbret []).map encode = some 0x9000000000000000#64 ∧
  (assemble .rdreg [.reg .seq]).map encode = some 0xA000000000000046#64 ∧
  (assemblePseudo .clrcb [.sym .ext1]).map encode = some 0x6800000000000000#64

/-! ### Steps and responses -/

/-- A step whose move is a word that decodes to a command is that command's meaning, on the state with the word taken from
the schedule and nothing else changed (R75, R76; the schedule is the model's, log entry 1). -/
def Obligations.StepRunsTheDecodedCommand : Prop :=
  ∀ (w : CommandWord) (rest : List Move) (i : Instr) (s : State), s.schedule = .command w :: rest → decode w = .ok i →
    step s = exec i { s with schedule := rest }

/-- No state stops the machine: every step is a next state (R180, "a command never traps"; no other agent can stop it). -/
def Obligations.EveryStepIsNext : Prop := ∀ s : State, ∃ t, step s = .next t

/-- R99, R100: one response per command word, bits 29:16 zero, status 3 never; the data is the register's value for an
RDREG that responds OK and 0 for every other response. Nothing is driven on the callback port. -/
def Obligations.OneResponsePerWord : Prop :=
  ∀ (w : CommandWord) (rest : List Move) (s : State), s.schedule = .command w :: rest →
    ∃ t r, step s = .next t ∧ t.ports = { response := some r, call := none } ∧ t.schedule = rest ∧
      r.extractLsb' 16 14 = 0#14 ∧ r.extractLsb' 30 2 ≠ 3#2 ∧
      (∀ a v, decode w = .ok (.rdreg a) → readReg a s.block = some v → r = v.setWidth 32) ∧
      ((∀ a v, decode w = .ok (.rdreg a) → readReg a s.block ≠ some v) → r.extractLsb' 0 16 = 0#16)

/-- R181, R182: the complete causes of IGNORED and of CONFIG_ERROR, IGNORED first, data 0; every other word responds OK. -/
def Obligations.ResponseStatusIsClassified : Prop :=
  ∀ (w : CommandWord) (rest : List Move) (s : State), s.schedule = .command w :: rest →
    ∃ t r, step s = .next t ∧ t.ports.response = some r ∧
      match decode w with
      | .error _ => r = 0x80000000#32
      | .ok i =>
        if ignoredCause i s.block = true then r = 0x80000000#32
        else if pairingError i = true then r = 0x40000000#32
        else r.extractLsb' 30 2 = 0#2

/-- R180: the outcome of a command is in its own response and nowhere else, and an outcome other than OK leaves the whole
block as it was. -/
def Obligations.ErrorsLeaveTheBlockUnchanged : Prop :=
  ∀ (w : CommandWord) (rest : List Move) (s : State), s.schedule = .command w :: rest →
    ∃ t r, step s = .next t ∧ t.ports = { response := some r, call := none } ∧
      (r.extractLsb' 30 2 ≠ 0#2 → t = answered r s.block { s with schedule := rest })

/-! ### Timer commands (spec/40_timer_config.md) -/

/-- R121: the validation of TINIT in its order; what passes it is performed. -/
def Obligations.TinitValidation : Prop :=
  ∀ (tid mode : BitVec 2) (clk : BitVec 3) (com ch : BitVec 2) (ival cval : Half) (s : State),
    if tid = 3#2 ∨ clk = 6#3 ∨ clk = 7#3 ∨ ch = 3#2 then
      exec (.tinit tid mode clk com ch ival cval) s = .next (answered 0x80000000#32 s.block s)
    else if ((tid = 0#2 ∨ tid = 2#2) ∧ ch ≠ 0#2) ∨ (tid = 1#2 ∧ ch = 0#2) then
      exec (.tinit tid mode clk com ch ival cval) s = .next (answered 0x40000000#32 s.block s)
    else
      ∃ b, exec (.tinit tid mode clk com ch ival cval) s = .next (answered 0x00000000#32 b s)

/-- R120, R129 (R122 to R124 in closed form): the words of TINIT, and the register image after a TINIT that responds OK, for
T0, T2, T1 channel A and T1 channel B, and everything else unchanged. -/
def Obligations.TinitRegisterImage : Prop :=
  (∀ w : CommandWord, w.extractLsb' 60 4 = 0x1#4 → decode w = .ok (.tinit (w.extractLsb' 58 2) (w.extractLsb' 56 2)
    (w.extractLsb' 53 3) (w.extractLsb' 51 2) (w.extractLsb' 49 2) (w.extractLsb' 32 16) (w.extractLsb' 16 16))) ∧
  ∀ (mode : BitVec 2) (clk : BitVec 3) (com : BitVec 2) (ival cval : Half) (s : State), clk ≠ 6#3 → clk ≠ 7#3 →
    exec (.tinit 0#2 mode clk com 0#2 ival cval) s = .next (answered 0x00000000#32
      { s.block with t0 := tinitImage8 mode clk com ival cval s.block.t0.iflg } s) ∧
    exec (.tinit 2#2 mode clk com 0#2 ival cval) s = .next (answered 0x00000000#32
      { s.block with t2 := tinitImage8 mode clk com ival cval s.block.t2.iflg } s) ∧
    exec (.tinit 1#2 mode clk com 1#2 ival cval) s = .next (answered 0x00000000#32
      { s.block with t1 := tinitImageA mode clk com ival cval s.block.t1.iflg } s) ∧
    exec (.tinit 1#2 mode clk com 2#2 ival cval) s = .next (answered 0x00000000#32
      { s.block with t1 := tinitImageB mode clk com ival cval s.block.t1.iflg } s)

/-- R126: the words of TSTART. It writes the clock-select bits of its timer and takes Stopped to Configured; nothing else changes; an
invalid `tid` or `clk` is ignored. -/
def Obligations.TstartResult : Prop :=
  (∀ w : CommandWord, w.extractLsb' 60 4 = 0x2#4 →
    decode w = .ok (.tstart (w.extractLsb' 58 2) (w.extractLsb' 53 3))) ∧
  ∀ (clk : BitVec 3) (s : State),
    (clk ≠ 6#3 → clk ≠ 7#3 →
      exec (.tstart 0#2 clk) s = .next (answered 0x00000000#32 { s.block with t0 := { s.block.t0 with
        ctrl := s.block.t0.ctrl &&& 0xF8#8 ||| clk.setWidth 8
        life := if s.block.t0.life = 2#2 then 1#2 else s.block.t0.life } } s) ∧
      exec (.tstart 1#2 clk) s = .next (answered 0x00000000#32 { s.block with t1 := { s.block.t1 with
        ctrlb := s.block.t1.ctrlb &&& 0xF8#8 ||| clk.setWidth 8
        life := if s.block.t1.life = 2#2 then 1#2 else s.block.t1.life } } s) ∧
      exec (.tstart 2#2 clk) s = .next (answered 0x00000000#32 { s.block with t2 := { s.block.t2 with
        ctrl := s.block.t2.ctrl &&& 0xF8#8 ||| clk.setWidth 8
        life := if s.block.t2.life = 2#2 then 1#2 else s.block.t2.life } } s)) ∧
    (∀ tid, tid = 3#2 ∨ clk = 6#3 ∨ clk = 7#3 →
      exec (.tstart tid clk) s = .next (answered 0x80000000#32 s.block s))

/-- R125: the words of TSTOP. It clears only the clock-select bits of its timer and takes Configured to Stopped; `tid` 3 is ignored. -/
def Obligations.TstopResult : Prop :=
  (∀ w : CommandWord, w.extractLsb' 60 4 = 0x3#4 → decode w = .ok (.tstop (w.extractLsb' 58 2))) ∧
  ∀ s : State,
    exec (.tstop 0#2) s = .next (answered 0x00000000#32 { s.block with t0 := { s.block.t0 with
      ctrl := s.block.t0.ctrl &&& 0xF8#8
      life := if s.block.t0.life = 1#2 then 2#2 else s.block.t0.life } } s) ∧
    exec (.tstop 1#2) s = .next (answered 0x00000000#32 { s.block with t1 := { s.block.t1 with
      ctrlb := s.block.t1.ctrlb &&& 0xF8#8
      life := if s.block.t1.life = 1#2 then 2#2 else s.block.t1.life } } s) ∧
    exec (.tstop 2#2) s = .next (answered 0x00000000#32 { s.block with t2 := { s.block.t2 with
      ctrl := s.block.t2.ctrl &&& 0xF8#8
      life := if s.block.t2.life = 1#2 then 2#2 else s.block.t2.life } } s) ∧
    exec (.tstop 3#2) s = .next (answered 0x80000000#32 s.block s)

/-- R128: the words of TDEINIT. It zeroes the owned set of its timer and makes it Uninit; the flags of the timer and everything else stay;
`tid` 3 is ignored. -/
def Obligations.TdeinitResult : Prop :=
  (∀ w : CommandWord, w.extractLsb' 60 4 = 0x4#4 → decode w = .ok (.tdeinit (w.extractLsb' 58 2))) ∧
  ∀ s : State,
    exec (.tdeinit 0#2) s = .next (answered 0x00000000#32 { s.block with t0 :=
      { ctrl := 0, cnt := 0, ocr := 0, ocrl := 0, ien := 0, iflg := s.block.t0.iflg, pdir := 0, life := 0 } } s) ∧
    exec (.tdeinit 1#2) s = .next (answered 0x00000000#32 { s.block with t1 :=
      { ctrla := 0, ctrlb := 0, cnt := 0, ocra := 0, ocrb := 0, ocrla := 0, ocrlb := 0, ien := 0
        iflg := s.block.t1.iflg, pdir := 0, life := 0 } } s) ∧
    exec (.tdeinit 2#2) s = .next (answered 0x00000000#32 { s.block with t2 :=
      { ctrl := 0, cnt := 0, ocr := 0, ocrl := 0, ien := 0, iflg := s.block.t2.iflg, pdir := 0, life := 0 } } s) ∧
    exec (.tdeinit 3#2) s = .next (answered 0x80000000#32 s.block s)

/-- R127: TSTOP then TSTART with the clock the timer had leaves every register of the owned set, and of the whole block
but `LIFE[t]`, exactly as before; `LIFE[t]` too if it was Configured. The clock must be a legal one, which R50 (c) says
of every reachable state. -/
def Obligations.StopThenStartRestores : Prop :=
  ∀ (tid : BitVec 2) (t : TimerId) (s : State), timerOf tid = some t → (clockSelect t s.block).toNat ≤ 5 →
    ∃ s₁ s₂, exec (.tstop tid) s = .next s₁ ∧ exec (.tstart tid (clockSelect t s.block)) s₁ = .next s₂ ∧
      OwnedEqual t s₂.block s.block ∧ setLife t (lifeOf t s.block) s₂.block = s.block ∧
      (lifeOf t s.block = 1#2 → s₂.block = s.block)

/-- R130: no residue. A TINIT that is accepted leaves the same owned set from any two states whatsoever, so whatever
inits, deinits, stops, starts and updates came before. -/
def Obligations.TinitLeavesNoResidue : Prop :=
  ∀ (tid mode : BitVec 2) (clk : BitVec 3) (com ch : BitVec 2) (ival cval : Half) (t : TimerId) (s₁ s₂ : State),
    timerOf tid = some t → (Instr.tinit tid mode clk com ch ival cval).wellFormed = true →
    pairingError (.tinit tid mode clk com ch ival cval) = false →
    ∃ r₁ r₂, exec (.tinit tid mode clk com ch ival cval) s₁ = .next r₁ ∧
      exec (.tinit tid mode clk com ch ival cval) s₂ = .next r₂ ∧ OwnedEqual t r₁.block r₂.block

/-! ### Compare update (spec/41_compare_update.md) -/

/-- R140 to R143, R146: the words of TCMP. It writes the compare buffers of its channel and nothing else; on T0 and T2 `ch` does not
matter; on T1 a missing or invalid channel is ignored. -/
def Obligations.TcmpResult : Prop :=
  (∀ w : CommandWord, w.extractLsb' 60 4 = 0x5#4 →
    decode w = .ok (.tcmp (w.extractLsb' 58 2) (w.extractLsb' 49 2) (w.extractLsb' 16 16))) ∧
  ∀ (ch : BitVec 2) (cval : Half) (s : State),
    exec (.tcmp 0#2 ch cval) s = .next (answered 0x00000000#32
      { s.block with t0 := { s.block.t0 with ocr := cval.setWidth 8 } } s) ∧
    exec (.tcmp 2#2 ch cval) s = .next (answered 0x00000000#32
      { s.block with t2 := { s.block.t2 with ocr := cval.setWidth 8 } } s) ∧
    exec (.tcmp 1#2 1#2 cval) s = .next (answered 0x00000000#32
      { s.block with t1 := { s.block.t1 with ocra := cval } } s) ∧
    exec (.tcmp 1#2 2#2 cval) s = .next (answered 0x00000000#32
      { s.block with t1 := { s.block.t1 with ocra := cval + 1#16, ocrb := cval } } s) ∧
    (ch = 0#2 ∨ ch = 3#2 → exec (.tcmp 1#2 ch cval) s = .next (answered 0x80000000#32 s.block s)) ∧
    exec (.tcmp 3#2 ch cval) s = .next (answered 0x80000000#32 s.block s)

/-- R144: TCMP twice is TCMP once, whether or not a wrap of any timer falls between. -/
def Obligations.TcmpIsIdempotent : Prop :=
  ∀ (tid ch : BitVec 2) (cval : Half) (t : TimerId) (s : State),
    ∃ s₁ s₂ s₃, exec (.tcmp tid ch cval) s = .next s₁ ∧ exec (.tcmp tid ch cval) s₁ = .next s₂ ∧
      s₂.block = s₁.block ∧
      exec (.tcmp tid ch cval) { s₁ with block := loadLatches t s₁.block } = .next s₃ ∧
      s₃.block = loadLatches t s₁.block

/-- R147: of two updates before a wrap the latch takes the last one, both latches of T1 in the one event, and until the
wrap the latches hold. -/
def Obligations.UpdateTakesEffectAtWrap : Prop :=
  ∀ (w₁ w₂ : CommandWord) (tid ch ch' : BitVec 2) (v₁ v₂ : Half) (t : TimerId) (rest : List Move) (s : State),
    s.schedule = .command w₁ :: .command w₂ :: .event (.wrap t) :: rest →
    decode w₁ = .ok (.tcmp tid ch' v₁) → decode w₂ = .ok (.tcmp tid ch v₂) →
    timerOf tid = some t → clockSelect t s.block ≠ 0#3 →
    ∃ m f, after 2 s = .next m ∧ after 3 s = .next f ∧
      (∀ u, latchOf u m.block = latchOf u s.block) ∧
      (∀ u, unitTimer u = t → latchOf u f.block = bufferOf u m.block) ∧
      (∀ u, bufferOf u f.block = bufferOf u m.block) ∧
      (t ≠ .t1 → ∀ u, unitTimer u = t → latchOf u f.block = (v₂.setWidth 8).setWidth 16) ∧
      (t = .t1 → ch = 2#2 → latchOf (.t1 .a) f.block = v₂ + 1#16 ∧ latchOf (.t1 .b) f.block = v₂) ∧
      (t = .t1 → ch = 1#2 → latchOf (.t1 .a) f.block = v₂)

/-! ### Registry (spec/42_dispatch_registry.md) -/

/-- R150: the words of SETCB. It writes the 16 bits of one slot, 0 emptying it, and nothing else; `src` 6 and 7 are ignored. -/
def Obligations.SetcbResult : Prop :=
  (∀ w : CommandWord, w.extractLsb' 60 4 = 0x6#4 →
    decode w = .ok (.setcb (w.extractLsb' 57 3) (w.extractLsb' 0 16))) ∧
  ∀ (h : Half) (s : State),
    exec (.setcb 0#3 h) s = .next (answered 0x00000000#32 { s.block with cb := { s.block.cb with timer0 := h } } s) ∧
    exec (.setcb 1#3 h) s = .next (answered 0x00000000#32 { s.block with cb := { s.block.cb with timer1 := h } } s) ∧
    exec (.setcb 2#3 h) s = .next (answered 0x00000000#32 { s.block with cb := { s.block.cb with timer2 := h } } s) ∧
    exec (.setcb 3#3 h) s = .next (answered 0x00000000#32 { s.block with cb := { s.block.cb with ext0 := h } } s) ∧
    exec (.setcb 4#3 h) s = .next (answered 0x00000000#32 { s.block with cb := { s.block.cb with ext1 := h } } s) ∧
    exec (.setcb 5#3 h) s = .next (answered 0x00000000#32 { s.block with cb := { s.block.cb with ext2 := h } } s) ∧
    exec (.setcb 6#3 h) s = .next (answered 0x80000000#32 s.block s) ∧
    exec (.setcb 7#3 h) s = .next (answered 0x80000000#32 s.block s)

/-- R152: after SETCB of `a` then of `b` to one source, an entry for a cause of it calls `b` and never `a`; an entry that
falls between the two calls `a`. -/
def Obligations.LastRegistrationWins : Prop :=
  ∀ (wa wb : CommandWord) (src : BitVec 3) (a b : Half) (c : Cause) (rest : List Move) (s : State),
    decode wa = .ok (.setcb src a) → decode wb = .ok (.setcb src b) → sourceOf src = some (causeSource c) →
    s.block.seq.busy = false → requesting c s.block = true →
    (b ≠ 0#16 → s.schedule = .command wa :: .command wb :: .dispatch c :: rest →
      ∃ t, after 3 s = .next t ∧ t.ports.call = some (callWord (causeSource c) b) ∧ t.block.seq.hnd = b) ∧
    (a ≠ 0#16 → s.schedule = .command wa :: .dispatch c :: .command wb :: rest →
      ∃ m t, after 2 s = .next m ∧ m.ports.call = some (callWord (causeSource c) a) ∧
        after 3 s = .next t ∧ t.block.seq.hnd = a ∧ t.ports.call = none ∧ slotOf (causeSource c) t.block.cb = b)

/-- R153, R154: the words of CBRET. With a handler outstanding it clears the flag of the serviced cause and that flag only, makes the
sequencer idle and changes nothing else; with none outstanding it is ignored. -/
def Obligations.CbretResult : Prop :=
  (∀ w : CommandWord, w.extractLsb' 60 4 = 0x9#4 → decode w = .ok .cbret) ∧
  ∀ s : State,
    (∀ c, s.block.seq.busy = true → s.block.seq.src = sourceCode (causeSource c) → s.block.seq.cause = causeCode c →
      ∃ b, exec .cbret s = .next (answered 0x00000000#32 b s) ∧ flagOf c b = false ∧
        (∀ d, d ≠ c → flagOf d b = flagOf d s.block) ∧
        b.seq = { busy := false, src := 0#3, cause := 0#2, hnd := 0#16 } ∧
        withFlagsAndSeqOf s.block b = s.block) ∧
    (s.block.seq.busy = false → exec .cbret s = .next (answered 0x80000000#32 s.block s))

/-! ### External lines (spec/43_external_interrupt.md) -/

/-- R160, R164: the words of XINIT, and XINIT on each line, `PULLUP` being whatever the implementation fixes; line 2 with LowLevel or AnyChange is
a ConfigurationError; line 3 is ignored. -/
def Obligations.XinitResult : Prop :=
  (∀ w : CommandWord, w.extractLsb' 60 4 = 0x7#4 →
    decode w = .ok (.xinit (w.extractLsb' 58 2) (w.extractLsb' 56 2))) ∧
  ∀ (edge : BitVec 2) (s : State),
    exec (.xinit 0#2 edge) s = .next (answered 0x00000000#32 { s.block with ext := { s.block.ext with
      esc0 := edge
      eien := s.block.ext.eien ||| 0b001#3
      epdir := s.block.ext.epdir &&& 0b110#3
      epup := if Config.pullup 0 then s.block.ext.epup ||| 0b001#3 else s.block.ext.epup
      xlife := s.block.ext.xlife ||| 0b001#3 } } s) ∧
    exec (.xinit 1#2 edge) s = .next (answered 0x00000000#32 { s.block with ext := { s.block.ext with
      esc1 := edge
      eien := s.block.ext.eien ||| 0b010#3
      epdir := s.block.ext.epdir &&& 0b101#3
      epup := if Config.pullup 1 then s.block.ext.epup ||| 0b010#3 else s.block.ext.epup
      xlife := s.block.ext.xlife ||| 0b010#3 } } s) ∧
    (edge = 2#2 ∨ edge = 3#2 →
      exec (.xinit 2#2 edge) s = .next (answered 0x00000000#32 { s.block with ext := { s.block.ext with
        esc2 := if edge = 2#2 then 0#1 else 1#1
        eien := s.block.ext.eien ||| 0b100#3
        epdir := s.block.ext.epdir &&& 0b011#3
        epup := if Config.pullup 2 then s.block.ext.epup ||| 0b100#3 else s.block.ext.epup
        xlife := s.block.ext.xlife ||| 0b100#3 } } s)) ∧
    (edge = 0#2 ∨ edge = 1#2 → exec (.xinit 2#2 edge) s = .next (answered 0x40000000#32 s.block s)) ∧
    exec (.xinit 3#2 edge) s = .next (answered 0x80000000#32 s.block s)

/-- R163: the words of XDEINIT. It clears the selector, the enable and the lifecycle of its line and nothing else; line 3 is ignored. -/
def Obligations.XdeinitResult : Prop :=
  (∀ w : CommandWord, w.extractLsb' 60 4 = 0x8#4 → decode w = .ok (.xdeinit (w.extractLsb' 58 2))) ∧
  ∀ s : State,
    exec (.xdeinit 0#2) s = .next (answered 0x00000000#32 { s.block with ext := { s.block.ext with
      esc0 := 0, eien := s.block.ext.eien &&& 0b110#3, xlife := s.block.ext.xlife &&& 0b110#3 } } s) ∧
    exec (.xdeinit 1#2) s = .next (answered 0x00000000#32 { s.block with ext := { s.block.ext with
      esc1 := 0, eien := s.block.ext.eien &&& 0b101#3, xlife := s.block.ext.xlife &&& 0b101#3 } } s) ∧
    exec (.xdeinit 2#2) s = .next (answered 0x00000000#32 { s.block with ext := { s.block.ext with
      esc2 := 0, eien := s.block.ext.eien &&& 0b011#3, xlife := s.block.ext.xlife &&& 0b011#3 } } s) ∧
    exec (.xdeinit 3#2) s = .next (answered 0x80000000#32 s.block s)

/-! ### Register read-back (spec/44_register_read.md, spec/20_memory.md) -/

/-- R170, R171: the words of RDREG. It answers the register's value, zero-extended, and changes nothing; an unmapped address, exactly those
of R171's ranges, is answered IGNORED with data 0. -/
def Obligations.RdregResult : Prop :=
  (∀ w : CommandWord, w.extractLsb' 60 4 = 0xA#4 → decode w = .ok (.rdreg (w.extractLsb' 0 8))) ∧
  ∀ (a : BitVec 8) (s : State),
    (unmapped a = true → exec (.rdreg a) s = .next (answered 0x80000000#32 s.block s)) ∧
    (unmapped a = false → ∃ v, readReg a s.block = some v ∧
      exec (.rdreg a) s = .next (answered (v.setWidth 32) s.block s))

/-- R72, R44: the address map, register by register. -/
def Obligations.AddressMap : Prop :=
  ∀ b : Block,
    [0x00#8, 0x01#8, 0x02#8, 0x03#8, 0x04#8, 0x05#8, 0x06#8].map (readReg · b) =
      [some (b.t0.ctrl.setWidth 16), some (b.t0.cnt.setWidth 16), some (b.t0.ocr.setWidth 16),
       some (b.t0.ien.setWidth 16), some (b.t0.iflg.setWidth 16), some (b.t0.pdir.setWidth 16),
       some (b.t0.life.setWidth 16)] ∧
    [0x10#8, 0x11#8, 0x12#8, 0x13#8, 0x14#8, 0x15#8, 0x16#8, 0x17#8, 0x18#8].map (readReg · b) =
      [some (b.t1.ctrla.setWidth 16), some (b.t1.ctrlb.setWidth 16), some b.t1.cnt, some b.t1.ocra, some b.t1.ocrb,
       some (b.t1.ien.setWidth 16), some (b.t1.iflg.setWidth 16), some (b.t1.pdir.setWidth 16),
       some (b.t1.life.setWidth 16)] ∧
    [0x20#8, 0x21#8, 0x22#8, 0x23#8, 0x24#8, 0x25#8, 0x26#8].map (readReg · b) =
      [some (b.t2.ctrl.setWidth 16), some (b.t2.cnt.setWidth 16), some (b.t2.ocr.setWidth 16),
       some (b.t2.ien.setWidth 16), some (b.t2.iflg.setWidth 16), some (b.t2.pdir.setWidth 16),
       some (b.t2.life.setWidth 16)] ∧
    [0x30#8, 0x31#8, 0x32#8, 0x33#8, 0x34#8, 0x35#8, 0x36#8, 0x37#8].map (readReg · b) =
      [some (b.ext.esc0.setWidth 16), some (b.ext.esc1.setWidth 16), some (b.ext.esc2.setWidth 16),
       some (b.ext.eien.setWidth 16), some (b.ext.eiflg.setWidth 16), some (b.ext.epdir.setWidth 16),
       some (b.ext.epup.setWidth 16), some (b.ext.xlife.setWidth 16)] ∧
    [0x40#8, 0x41#8, 0x42#8, 0x43#8, 0x44#8, 0x45#8].map (readReg · b) =
      [some b.cb.timer0, some b.cb.timer1, some b.cb.timer2, some b.cb.ext0, some b.cb.ext1, some b.cb.ext2] ∧
    readReg 0x46#8 b = some ((if b.seq.busy then 0x8000#16 else 0#16) ||| b.seq.src.setWidth 16 <<< 4 |||
      b.seq.cause.setWidth 16) ∧
    readReg 0x47#8 b = some b.seq.hnd ∧
    ∀ a, readReg a b = none ↔ unmapped a = true

/-! ### Outputs at the boundary (spec/10_state.md R45) -/

/-- R45, R122, R188: right after an accepted TINIT the counter hardware of the timer sees the clock, mode and output mode of
the command, force-compare 0, the compare value in the latch at once, and the initial count; right after an accepted XINIT
the pad logic of the line sees the edge mode of the command. -/
def Obligations.InitsReachTheOutputs : Prop :=
  ∀ (mode : BitVec 2) (clk : BitVec 3) (com edge : BitVec 2) (ival cval : Half) (s : State), clk ≠ 6#3 → clk ≠ 7#3 →
    (∃ t, exec (.tinit 0#2 mode clk com 0#2 ival cval) s = .next t ∧ counterOut8 t.block.t0 =
      { cs := clk, wgm := mode, com := com, foc := false, latch := cval.setWidth 8, cnt := ival.setWidth 8 }) ∧
    (∃ t, exec (.tinit 2#2 mode clk com 0#2 ival cval) s = .next t ∧ counterOut8 t.block.t2 =
      { cs := clk, wgm := mode, com := com, foc := false, latch := cval.setWidth 8, cnt := ival.setWidth 8 }) ∧
    (∃ t, exec (.tinit 1#2 mode clk com 1#2 ival cval) s = .next t ∧ counterOut16 t.block.t1 =
      { cs := clk, wgm := mode, coma := com, comb := 0, foca := false, focb := false, latchA := cval, latchB := 0
        cnt := ival }) ∧
    (∃ t, exec (.tinit 1#2 mode clk com 2#2 ival cval) s = .next t ∧ counterOut16 t.block.t1 =
      { cs := clk, wgm := mode, coma := 0, comb := com, foca := false, focb := false
        latchA := if mode = 2#2 ∨ mode = 3#2 then cval + 1#16 else 0, latchB := cval, cnt := ival }) ∧
    (∃ t, exec (.xinit 0#2 edge) s = .next t ∧ padMode .line0 t.block = edgeOf edge) ∧
    (∃ t, exec (.xinit 1#2 edge) s = .next t ∧ padMode .line1 t.block = edgeOf edge) ∧
    (edge = 2#2 ∨ edge = 3#2 → ∃ t, exec (.xinit 2#2 edge) s = .next t ∧ padMode .line2 t.block = edgeOf edge)

/-! ### Events, interrupts and the sequencer (spec/60_exceptions.md) -/

/-- R186: each environment event, enabled only while its timer has a clock (an external event always), and all it writes;
one that is not enabled changes nothing (that a scheduled one is dropped is the model's choice, log entry 9). -/
def Obligations.EventEffects : Prop :=
  ∀ (rest : List Move) (s : State),
    let cs0 := s.block.t0.ctrl.extractLsb' 0 3
    let cs1 := s.block.t1.ctrlb.extractLsb' 0 3
    let cs2 := s.block.t2.ctrl.extractLsb' 0 3
    (∀ v, s.schedule = .event (.count .t0 v) :: rest → step s = .next (moved
      (if cs0 ≠ 0#3 then { s.block with t0 := { s.block.t0 with cnt := v.setWidth 8 } } else s.block) rest s)) ∧
    (∀ v, s.schedule = .event (.count .t1 v) :: rest → step s = .next (moved
      (if cs1 ≠ 0#3 then { s.block with t1 := { s.block.t1 with cnt := v } } else s.block) rest s)) ∧
    (∀ v, s.schedule = .event (.count .t2 v) :: rest → step s = .next (moved
      (if cs2 ≠ 0#3 then { s.block with t2 := { s.block.t2 with cnt := v.setWidth 8 } } else s.block) rest s)) ∧
    (s.schedule = .event (.wrap .t0) :: rest → step s = .next (moved
      (if cs0 ≠ 0#3 then { s.block with t0 := { s.block.t0 with ocrl := s.block.t0.ocr } } else s.block) rest s)) ∧
    (s.schedule = .event (.wrap .t1) :: rest → step s = .next (moved
      (if cs1 ≠ 0#3 then { s.block with t1 := { s.block.t1 with ocrla := s.block.t1.ocra, ocrlb := s.block.t1.ocrb } }
       else s.block) rest s)) ∧
    (s.schedule = .event (.wrap .t2) :: rest → step s = .next (moved
      (if cs2 ≠ 0#3 then { s.block with t2 := { s.block.t2 with ocrl := s.block.t2.ocr } } else s.block) rest s)) ∧
    (s.schedule = .event (.ovf .t0) :: rest → step s = .next (moved
      (if cs0 ≠ 0#3 then { s.block with t0 := { s.block.t0 with iflg := s.block.t0.iflg ||| 0b01#2 } } else s.block)
      rest s)) ∧
    (s.schedule = .event (.ovf .t1) :: rest → step s = .next (moved
      (if cs1 ≠ 0#3 then { s.block with t1 := { s.block.t1 with iflg := s.block.t1.iflg ||| 0b001#3 } } else s.block)
      rest s)) ∧
    (s.schedule = .event (.ovf .t2) :: rest → step s = .next (moved
      (if cs2 ≠ 0#3 then { s.block with t2 := { s.block.t2 with iflg := s.block.t2.iflg ||| 0b01#2 } } else s.block)
      rest s)) ∧
    (s.schedule = .event (.cmp .t0) :: rest → step s = .next (moved
      (if cs0 ≠ 0#3 then { s.block with t0 := { s.block.t0 with iflg := s.block.t0.iflg ||| 0b10#2 } } else s.block)
      rest s)) ∧
    (s.schedule = .event (.cmp (.t1 .a)) :: rest → step s = .next (moved
      (if cs1 ≠ 0#3 then { s.block with t1 := { s.block.t1 with iflg := s.block.t1.iflg ||| 0b010#3 } } else s.block)
      rest s)) ∧
    (s.schedule = .event (.cmp (.t1 .b)) :: rest → step s = .next (moved
      (if cs1 ≠ 0#3 then { s.block with t1 := { s.block.t1 with iflg := s.block.t1.iflg ||| 0b100#3 } } else s.block)
      rest s)) ∧
    (s.schedule = .event (.cmp .t2) :: rest → step s = .next (moved
      (if cs2 ≠ 0#3 then { s.block with t2 := { s.block.t2 with iflg := s.block.t2.iflg ||| 0b10#2 } } else s.block)
      rest s)) ∧
    (s.schedule = .event (.ext .line0) :: rest → step s = .next (moved
      { s.block with ext := { s.block.ext with eiflg := s.block.ext.eiflg ||| 0b001#3 } } rest s)) ∧
    (s.schedule = .event (.ext .line1) :: rest → step s = .next (moved
      { s.block with ext := { s.block.ext with eiflg := s.block.ext.eiflg ||| 0b010#3 } } rest s)) ∧
    (s.schedule = .event (.ext .line2) :: rest → step s = .next (moved
      { s.block with ext := { s.block.ext with eiflg := s.block.ext.eiflg ||| 0b100#3 } } rest s))

/-- R184: a cause is the pair of its source code and cause code, the ten pairs of the table and no other; its flag and
enable are the table's bits, and its event sets its flag and no other. -/
def Obligations.CauseTable : Prop :=
  (∀ c, causeOf (sourceCode (causeSource c)) (causeCode c) = some c) ∧
  (∀ src code c, causeOf src code = some c → src = sourceCode (causeSource c) ∧ code = causeCode c) ∧
  ∀ b : Block,
    allCauses.map (fun c => (sourceCode (causeSource c), causeCode c, flagOf c b, enableOf c b)) =
      [(0#3, 0#2, b.t0.iflg[0], b.t0.ien[0]), (0#3, 1#2, b.t0.iflg[1], b.t0.ien[1]),
       (1#3, 0#2, b.t1.iflg[0], b.t1.ien[0]), (1#3, 1#2, b.t1.iflg[1], b.t1.ien[1]),
       (1#3, 2#2, b.t1.iflg[2], b.t1.ien[2]), (2#3, 0#2, b.t2.iflg[0], b.t2.ien[0]),
       (2#3, 1#2, b.t2.iflg[1], b.t2.ien[1]), (3#3, 0#2, b.ext.eiflg[0], b.ext.eien[0]),
       (4#3, 0#2, b.ext.eiflg[1], b.ext.eien[1]), (5#3, 0#2, b.ext.eiflg[2], b.ext.eien[2])] ∧
    ∀ p ∈ allCauses.zip [.ovf .t0, .cmp .t0, .ovf .t1, .cmp (.t1 .a), .cmp (.t1 .b), .ovf .t2, .cmp .t2, .ext .line0,
        .ext .line1, .ext .line2],
      flagOf p.1 (eventEffect p.2 b) = true ∧ ∀ d, d ≠ p.1 → flagOf d (eventEffect p.2 b) = flagOf d b

/-- R192, R193, R196, R101: a dispatch entry for any requesting cause while the sequencer is idle. With a handler, `SEQ`
records source, cause and handler and the callback port carries source (bits 18:16) and handler (15:0), the flag staying;
with an empty slot the flag of the cause, and that flag only, is cleared. -/
def Obligations.DispatchEntry : Prop :=
  ∀ (c : Cause) (rest : List Move) (s : State), s.schedule = .dispatch c :: rest →
    s.block.seq.busy = false → requesting c s.block = true →
    (slotOf (causeSource c) s.block.cb ≠ 0#16 →
      step s = .next { s with
        block := { s.block with seq :=
          { busy := true, src := sourceCode (causeSource c), cause := causeCode c
            hnd := slotOf (causeSource c) s.block.cb } }
        ports := { response := none, call := some (sourceCode (causeSource c) ++ slotOf (causeSource c) s.block.cb) }
        schedule := rest }) ∧
    (slotOf (causeSource c) s.block.cb = 0#16 →
      ∃ b, step s = .next (moved b rest s) ∧ flagOf c b = false ∧
        (∀ d, d ≠ c → flagOf d b = flagOf d s.block) ∧ b.seq = s.block.seq ∧ withFlagsAndSeqOf s.block b = s.block)

/-- R191, R198: no entry is taken while the sequencer is busy or for a cause that is not requesting (that a scheduled one
is dropped is the model's choice, log entry 9). -/
def Obligations.NoEntryWhenNotEnabled : Prop :=
  ∀ (c : Cause) (rest : List Move) (s : State), s.schedule = .dispatch c :: rest →
    s.block.seq.busy = true ∨ requesting c s.block = false → step s = .next (moved s.block rest s)

/-- R191, R194: with nothing scheduled, an idle sequencer with a requesting cause takes the entry of one of the requesting
causes, exactly as the scheduled entry for that cause; otherwise nothing changes. The choice is the free `Config.arb`
(log entries 2 and 3: that it is taken at once is the model's choice). -/
def Obligations.SequencerServesOnItsOwn : Prop :=
  ∀ s : State, s.schedule = [] →
    (s.block.seq.busy = true ∨ requestingCauses s.block = [] → step s = .next (moved s.block [] s)) ∧
    (s.block.seq.busy = false → requestingCauses s.block ≠ [] →
      ∃ c t, c ∈ requestingCauses s.block ∧ step s = .next t ∧
        step { s with schedule := [.dispatch c], arbDraws := s.arbDraws + 1 } = .next t)

/-- R198: while a handler is outstanding nothing but CBRET and reset changes `SEQ`, and no handler is called. -/
def Obligations.NoNesting : Prop :=
  ∀ s t : State, s.block.seq.busy = true → step s = .next t →
    t.ports.call = none ∧ (currentCommand s ≠ some .cbret → resetNext s = false → t.block.seq = s.block.seq)

/-- R190, R101: the sequencer becomes busy only by a dispatch entry that finds a non-empty slot, which is when and only
when the callback port is driven; it becomes idle only by CBRET and by reset. -/
def Obligations.BusyChangesOnlyAtEntryAndReturn : Prop :=
  ∀ s t : State, step s = .next t →
    (s.block.seq.busy = false → t.block.seq.busy = true →
      ∃ c, EntryNext c s ∧ requesting c s.block = true ∧ slotOf (causeSource c) s.block.cb ≠ 0#16 ∧
        t.block.seq.src = sourceCode (causeSource c) ∧ t.block.seq.cause = causeCode c ∧
        t.block.seq.hnd = slotOf (causeSource c) s.block.cb ∧
        t.ports.call = some (sourceCode (causeSource c) ++ slotOf (causeSource c) s.block.cb)) ∧
    (t.ports.call ≠ none ↔ s.block.seq.busy = false ∧ t.block.seq.busy = true) ∧
    (s.block.seq.busy = true → t.block.seq.busy = false → currentCommand s = some .cbret ∨ resetNext s = true)

/-- R34, R39, R196: a flag falls only by reset, by the CBRET of its own cause, or by an empty-slot dispatch of its own
cause (one scheduled for it, or the sequencer's own when nothing is scheduled); no other command, event or entry clears
it. -/
def Obligations.FlagsFallOnlyByDispatch : Prop :=
  ∀ (c : Cause) (s t : State), step s = .next t → flagOf c s.block = true → flagOf c t.block = false →
    resetNext s = true ∨
    (currentCommand s = some .cbret ∧ s.block.seq.busy = true ∧ causeOf s.block.seq.src s.block.seq.cause = some c) ∨
    (EntryNext c s ∧ s.block.seq.busy = false ∧ requesting c s.block = true ∧
      slotOf (causeSource c) s.block.cb = 0#16)

/-- R34, R39, R186: a flag rises only by the matching event of the environment, and that only while the event is
enabled. -/
def Obligations.FlagsRiseOnlyByEvents : Prop :=
  ∀ (c : Cause) (s t : State), step s = .next t → flagOf c s.block = false → flagOf c t.block = true →
    (∃ x, eventNext s = some (.ovf x) ∧ ovfCause x = c ∧ clockSelect x s.block ≠ 0#3) ∨
    (∃ u, eventNext s = some (.cmp u) ∧ cmpCause u = c ∧ clockSelect (unitTimer u) s.block ≠ 0#3) ∨
    (∃ l, eventNext s = some (.ext l) ∧ extCause l = c)

/-- R185, R33, R38: an enable of a timer is set only by a TINIT of that timer and cleared only by a TINIT or TDEINIT of it,
an enable of a line is set only by an XINIT of that line and cleared only by an XDEINIT of it; reset clears either. -/
def Obligations.EnablesChangeOnlyByConfiguration : Prop :=
  ∀ (c : Cause) (s t : State), step s = .next t →
    (enableOf c s.block = false → enableOf c t.block = true →
      (∃ x tid m k o ch iv cv, currentCommand s = some (.tinit tid m k o ch iv cv) ∧ timerOf tid = some x ∧
        causeSource c = timerSource x) ∨
      (∃ l line e, currentCommand s = some (.xinit line e) ∧ lineOf line = some l ∧ c = extCause l)) ∧
    (enableOf c s.block = true → enableOf c t.block = false →
      resetNext s = true ∨
      (∃ x tid m k o ch iv cv, currentCommand s = some (.tinit tid m k o ch iv cv) ∧ timerOf tid = some x ∧
        causeSource c = timerSource x) ∨
      (∃ x tid, currentCommand s = some (.tdeinit tid) ∧ timerOf tid = some x ∧ causeSource c = timerSource x) ∨
      (∃ l line, currentCommand s = some (.xdeinit line) ∧ lineOf line = some l ∧ c = extCause l))

/-- R43: a slot is written only by SETCB of its source, with the reference the command carries, and by reset. -/
def Obligations.SlotsWrittenOnlyBySetcb : Prop :=
  ∀ (x : Source) (s t : State), step s = .next t → slotOf x t.block.cb ≠ slotOf x s.block.cb →
    resetNext s = true ∨
    ∃ src h, currentCommand s = some (.setcb src h) ∧ sourceOf src = some x ∧ slotOf x t.block.cb = h

/-- R28: a counter changes only by TINIT or TDEINIT of its timer, by its count event while clocked, and by reset. -/
def Obligations.CountersWrittenOnlyAsListed : Prop :=
  ∀ (x : TimerId) (s t : State), step s = .next t → counterOf x t.block ≠ counterOf x s.block →
    resetNext s = true ∨ configuresNext x s = true ∨
    (clockSelect x s.block ≠ 0#3 ∧ ∃ v, eventNext s = some (.count x v))

/-- R32: a latch changes only by TINIT or TDEINIT of its timer, by reset, and by the wrap event of its timer, when it
takes the buffer's value. -/
def Obligations.LatchesWrittenOnlyAsListed : Prop :=
  ∀ (u : CompareUnit) (s t : State), step s = .next t → latchOf u t.block ≠ latchOf u s.block →
    resetNext s = true ∨ configuresNext (unitTimer u) s = true ∨
    (eventNext s = some (.wrap (unitTimer u)) ∧ clockSelect (unitTimer u) s.block ≠ 0#3 ∧
      latchOf u t.block = bufferOf u s.block)

/-- R36: the lifecycle of a timer changes only along the arrows of its state machine. -/
def Obligations.LifecycleFollowsTheStateMachine : Prop :=
  ∀ (x : TimerId) (s t : State), step s = .next t → lifeOf x t.block ≠ lifeOf x s.block →
    resetNext s = true ∨
    (∃ tid m k o ch iv cv, currentCommand s = some (.tinit tid m k o ch iv cv) ∧ timerOf tid = some x ∧
      lifeOf x t.block = 1#2) ∨
    (∃ tid, currentCommand s = some (.tdeinit tid) ∧ timerOf tid = some x ∧ lifeOf x t.block = 0#2) ∨
    (∃ tid, currentCommand s = some (.tstop tid) ∧ timerOf tid = some x ∧ lifeOf x s.block = 1#2 ∧
      lifeOf x t.block = 2#2) ∨
    (∃ tid k, currentCommand s = some (.tstart tid k) ∧ timerOf tid = some x ∧ lifeOf x s.block = 2#2 ∧
      lifeOf x t.block = 1#2)

/-- R41, R161: a pull-up once enabled stays enabled until reset, and only XINIT of its line enables one, if `PULLUP` of the
line is true. -/
def Obligations.PullUpsStayUntilReset : Prop :=
  ∀ (l : Line) (s t : State), step s = .next t →
    (resetNext s = false → getBit (lineIndex l) s.block.ext.epup = true → getBit (lineIndex l) t.block.ext.epup = true) ∧
    (getBit (lineIndex l) s.block.ext.epup = false → getBit (lineIndex l) t.block.ext.epup = true →
      Config.pullup (lineIndex l) = true ∧ ∃ line e, currentCommand s = some (.xinit line e) ∧ lineOf line = some l)

/-- R200, R156: one privilege level. A command other than CBRET and a read of `SEQ` has the same effect whether a handler
is outstanding or not, and whichever. -/
def Obligations.CommandsIgnoreInterruptContext : Prop :=
  ∀ (i : Instr) (q : Seq) (s : State), i ≠ .cbret → i ≠ .rdreg 0x46#8 → i ≠ .rdreg 0x47#8 →
    ∃ t, exec i s = .next t ∧
      exec i { s with block := { s.block with seq := q } } = .next { t with block := { t.block with seq := q } }

/-- R207, U13: a handler that never ends. While the schedule holds no CBRET and no reset the sequencer stays busy with the
same handler for any number of steps, and no step is refused. -/
def Obligations.UnendedHandlerHangsForEver : Prop :=
  ∀ (n : Nat) (s : State), s.block.seq.busy = true → NeverReturns s.schedule →
    ∃ t, after n s = .next t ∧ t.block.seq = s.block.seq

/-- R13, R233, R207: a handler that ends in bounded time. If a CBRET is among the next `n` moves (the host's duty), the
sequencer is idle again after at most `n` steps, whatever else comes between. -/
def Obligations.EndedHandlerFreesTheSequencer : Prop :=
  ∀ (n : Nat) (s : State), s.block.seq.busy = true → HandlerEnds n s.schedule →
    ∃ k t, k ≤ n ∧ after k s = .next t ∧ t.block.seq.busy = false

/-- R13, R153, R233: exactly one CBRET per call. If each handler sends a CBRET only while its own call is owed one (the
host's duty), then after every step the latest call and no other is owed one while the sequencer is busy and none while it
is idle, no CBRET is stray, and a CBRET ends the handler that sent it and no other. -/
def Obligations.EachReturnEndsItsOwnHandler : Prop :=
  ∀ (g : CallRecord) (sender : Nat) (s t : State), CallsMatch g s.block → ReturnDuty g sender s → step s = .next t →
    CallsMatch (callsAfter sender s t g) t.block ∧ NoStrayReturn s ∧
      (currentCommand s = some .cbret →
        g.owing = [sender] ∧ (callsAfter sender s t g).owing = [] ∧ t.block.seq.busy = false)

/-- R191, R193, R14: with nothing more scheduled, ten steps of the sequencer on its own reach a state in which a handler
is outstanding or the block is quiescent, whatever the arbiter chooses (that the sequencer moves at once is the model's
choice, log entries 2 and 3). -/
def Obligations.SequencerDrainsInTenSteps : Prop :=
  ∀ s : State, s.schedule = [] → ∃ t, after 10 s = .next t ∧ (t.block.seq.busy = true ∨ Quiescent t.block)

/-! ### Reset and standing invariants (spec/10_state.md, spec/70_reset_and_hazards.md) -/

/-- R48: after reset every register is 0, every slot is empty and the sequencer is idle; every mapped address reads 0. -/
def Obligations.ResetValues : Prop :=
  State.reset.block =
    { t0 := { ctrl := 0, cnt := 0, ocr := 0, ocrl := 0, ien := 0, iflg := 0, pdir := 0, life := 0 }
      t1 := { ctrla := 0, ctrlb := 0, cnt := 0, ocra := 0, ocrb := 0, ocrla := 0, ocrlb := 0, ien := 0, iflg := 0
              pdir := 0, life := 0 }
      t2 := { ctrl := 0, cnt := 0, ocr := 0, ocrl := 0, ien := 0, iflg := 0, pdir := 0, life := 0 }
      ext := { esc0 := 0, esc1 := 0, esc2 := 0, eien := 0, eiflg := 0, epdir := 0, epup := 0, xlife := 0 }
      cb := { timer0 := 0, timer1 := 0, timer2 := 0, ext0 := 0, ext1 := 0, ext2 := 0 }
      seq := { busy := false, src := 0, cause := 0, hnd := 0 } } ∧
  ∀ a, unmapped a = false → readReg a State.reset.block = some 0#16

/-- R220, R222: the reset input puts the whole block to its reset values in one step, in any state, also inside a handler;
a CBRET that comes after it is ignored. -/
def Obligations.ResetClearsTheBlock : Prop :=
  ∀ (rest : List Move) (s : State), s.schedule = .reset :: rest →
    step s = .next (moved State.reset.block rest s) ∧
    exec .cbret (moved State.reset.block rest s) =
      .next (answered 0x80000000#32 State.reset.block (moved State.reset.block rest s))

/-- R221: where no timer is clocked and no cause is enabled, as after reset, no step but a command changes anything except
external flags, calls a handler, or leaves that condition. -/
def Obligations.NothingRunsWithoutCommands : Prop :=
  ∀ s t : State, Dormant s.block → (∀ w rest, s.schedule ≠ .command w :: rest) → resetNext s = false →
    step s = .next t →
    t.ports.call = none ∧ t.block = { s.block with ext := { s.block.ext with eiflg := t.block.ext.eiflg } } ∧
      Dormant t.block ∧ requestingCauses t.block = []

/-- R50 at reset: the standing invariants (a) to (i) hold of the reset state, which is dormant (R221) and quiescent. -/
def Obligations.ResetMeetsTheInvariants : Prop :=
  Standing State.reset.block ∧ UninitIsZero State.reset.block ∧ Dormant State.reset.block ∧ Quiescent State.reset.block

/-- R50 (a) to (h): the standing invariants are preserved by every step of every agent. -/
def Obligations.StandingInvariantsKept : Prop :=
  ∀ s t : State, Standing s.block → step s = .next t → Standing t.block

/-- R50 (i): if the host keeps the lifecycle duty of R230, an Uninit timer has an all-zero owned set. -/
def Obligations.UninitTimersStayZero : Prop :=
  ∀ s t : State, UninitIsZero s.block → LifecycleDuty s → step s = .next t → UninitIsZero t.block

/-- R31, R32: if the host keeps T1 on channel B in a pairing mode (R231), `OCRA = OCRB + 1` holds of the buffers and of
the latches after every step, so neither the sequencer nor a wrap ever sees the pair half-written. -/
def Obligations.PairingKept : Prop :=
  ∀ s t : State, Paired s.block → ChannelBDuty s → resetNext s = false → step s = .next t → Paired t.block

/-- R13, R31, R231: one channel per configuration of T1. If the host passes to TCMP the channel that the TINIT in force
configured (its duty), then on channel A the registers of channel B stay 0, and on channel B in Compare or FastPWM the pair
`OCRA = OCRB + 1` holds of buffers and latches, after every step, also across re-configurations and reset. -/
def Obligations.T1ChannelKept : Prop :=
  ∀ (r : T1Record) (s t : State), T1Match r s.block → OneChannelDuty r s → step s = .next t →
    T1Match (t1After s r) t.block

/-- R31: right after a TINIT of T1 with channel B in Compare or FastPWM, buffers and latches are paired, and right after
any TCMP of T1 with channel B the buffers are, modulo 2^16. -/
def Obligations.ChannelBWritesEstablishThePair : Prop :=
  ∀ (mode : BitVec 2) (clk : BitVec 3) (com : BitVec 2) (ival cval : Half) (s : State),
    (clk ≠ 6#3 → clk ≠ 7#3 → mode = 2#2 ∨ mode = 3#2 →
      ∃ t, exec (.tinit 1#2 mode clk com 2#2 ival cval) s = .next t ∧ Paired t.block ∧ t.block.t1.ocrb = cval) ∧
    ∃ t, exec (.tcmp 1#2 2#2 cval) s = .next t ∧ t.block.t1.ocra = t.block.t1.ocrb + 1#16 ∧ t.block.t1.ocrb = cval ∧
      (cval = 65535#16 → t.block.t1.ocra = 0#16)
end

