-- ==== Sys2Proof/Laws/Decode.lean ====
section
/-! SUPPORT. Reading one field out of a word built field by field. -/

namespace Sys2Proof

/-- A field of a union of words is the union of the fields. -/
theorem extractLsb'_or (v w : CommandWord) (lo n : Nat) :
    (v ||| w).extractLsb' lo n = v.extractLsb' lo n ||| w.extractLsb' lo n := by
  ext; simp

/-- A placed field reads back whole. -/
theorem extractLsb'_place_same {n : Nat} (lo : Nat) (v : BitVec n) (h : lo + n ≤ 64) :
    (place lo v).extractLsb' lo n = v := by
  ext i hi
  have h1 : lo + i < 64 := by omega
  have h2 : i < 64 := by omega
  simp only [place, BitVec.getElem_extractLsb', BitVec.getLsbD_shiftLeft, BitVec.getLsbD_setWidth]
  simp [h1, h2, BitVec.getLsbD_eq_getElem hi]

/-- A placed field is 0 wherever it does not lie. -/
theorem extractLsb'_place_other {m n : Nat} (lo lo' : Nat) (v : BitVec m) (h : lo + m ≤ lo' ∨ lo' + n ≤ lo) :
    (place lo v).extractLsb' lo' n = 0 := by
  ext i hi
  simp only [place, BitVec.getElem_extractLsb', BitVec.getLsbD_shiftLeft, BitVec.getLsbD_setWidth]
  rcases h with h | h
  · have h1 : m ≤ lo' + i - lo := by omega
    simp [BitVec.getLsbD_of_ge v _ h1]
  · have h1 : lo' + i < lo := by omega
    simp [h1]

/-- Placing back the field of a word keeps the bits of the field's mask. -/
theorem place_extractLsb' (w : CommandWord) (lo n : Nat) :
    place lo (w.extractLsb' lo n) = w &&& place lo (BitVec.allOnes n) := by
  apply BitVec.eq_of_getLsbD_eq
  intro i hi
  simp only [place, BitVec.getLsbD_and, BitVec.getLsbD_shiftLeft, BitVec.getLsbD_setWidth,
    BitVec.getLsbD_extractLsb', BitVec.getLsbD_allOnes]
  rcases Nat.lt_or_ge i lo with h | h
  · simp [h]
  · have h1 : i - lo < 64 := by omega
    have h2 : lo + (i - lo) = i := by omega
    simp [hi, h1, h2, Nat.not_lt.mpr h, Bool.and_comm]

/-- A mask that covers a field does not change it. -/
theorem extractLsb'_and_of_covers {w m : CommandWord} {lo n : Nat} (h : m.extractLsb' lo n = BitVec.allOnes n) :
    (w &&& m).extractLsb' lo n = w.extractLsb' lo n := by
  have h1 : (w &&& m).extractLsb' lo n = w.extractLsb' lo n &&& m.extractLsb' lo n := by ext; simp
  rw [h1, h, BitVec.and_allOnes]

/-- Words that agree under a mask agree in every field the mask covers. -/
theorem extractLsb'_congr_mask {v w m : CommandWord} {lo n : Nat} (hv : v &&& m = w &&& m)
    (h : m.extractLsb' lo n = BitVec.allOnes n) : v.extractLsb' lo n = w.extractLsb' lo n := by
  rw [← extractLsb'_and_of_covers h, hv, extractLsb'_and_of_covers h]

/-- The all-zero word selects no command (R97). -/
theorem decode_zero : decode 0 = .error (.reservedOpcode 0) := rfl

end Sys2Proof
end

