-- ==== Sys2Proof/Laws/Fields.lean ====
section
/-! SUPPORT. Bit fields: what a field write does to every bit, reading a field back, and the code tables both ways. -/

namespace Sys2Proof.Machine

open Sys2Proof

variable {m n k : Nat}

/-- Every bit after a field write. -/
theorem getLsbD_putField (lo : Nat) (v : BitVec n) (r : BitVec m) (i : Nat) :
    (putField lo v r).getLsbD i =
      (decide (i < m) && if lo ≤ i ∧ i < lo + n then v.getLsbD (i - lo) else r.getLsbD i) := by
  simp only [putField, BitVec.getLsbD_or, BitVec.getLsbD_and, BitVec.getLsbD_not, BitVec.getLsbD_shiftLeft,
    BitVec.getLsbD_setWidth, BitVec.getLsbD_allOnes]
  by_cases hm : i < m
  · rcases Nat.lt_or_ge i lo with hl | hl
    · have h1 : ¬ lo ≤ i := by omega
      simp [hm, hl, h1]
    · have h1 : ¬ i < lo := by omega
      have h2 : i - lo < m := by omega
      rcases Nat.lt_or_ge (i - lo) n with hn | hn
      · have h3 : i < lo + n := by omega
        simp only [hm, h1, h2, hl, hn, h3]
        simp
      · have h3 : ¬ i < lo + n := by omega
        have h4 : ¬ i - lo < n := by omega
        simp only [hm, h1, h2, hl, h3, h4, BitVec.getLsbD_of_ge v _ hn]
        simp
  · simp [hm, BitVec.getLsbD_of_ge r i (Nat.not_lt.mp hm)]

/-- A field just written reads back. -/
theorem getField_putField_same (lo : Nat) (v : BitVec n) (r : BitVec m) (h : lo + n ≤ m) :
    getField lo n (putField lo v r) = v := by
  ext i hi
  have h1 : lo + i < m := by omega
  rw [getField, BitVec.getElem_extractLsb', getLsbD_putField]
  simp [h1, hi]

/-- A field write leaves every disjoint field alone. -/
theorem getField_putField_other (lo lo' : Nat) (v : BitVec n) (r : BitVec m) (h : lo + n ≤ lo' ∨ lo' + k ≤ lo) :
    getField lo' k (putField lo v r) = getField lo' k r := by
  ext i hi
  have h1 : ¬ (lo ≤ lo' + i ∧ lo' + i < lo + n) := by omega
  simp only [getField, BitVec.getElem_extractLsb', getLsbD_putField, h1, if_false]
  rcases Nat.lt_or_ge (lo' + i) m with h2 | h2 <;> simp [h2, BitVec.getLsbD_of_ge]

/-- A bit just written reads back. -/
@[simp] theorem getBit_putBit_same (i : Nat) (v : Bool) (r : BitVec m) (h : i < m) : getBit i (putBit i v r) = v := by
  rw [getBit, putBit, getLsbD_putField]
  simp [h]

/-- A bit write leaves every other bit alone. -/
theorem getBit_putBit_other {i j : Nat} (v : Bool) (r : BitVec m) (h : j ≠ i) :
    getBit j (putBit i v r) = getBit j r := by
  have h1 : ¬ (i ≤ j ∧ j < i + 1) := by omega
  simp only [getBit, putBit, getLsbD_putField, h1, if_false]
  rcases Nat.lt_or_ge j m with h2 | h2 <;> simp [h2, BitVec.getLsbD_of_ge]

/-- `mask_16(v + 1)` is the sum modulo 2^16. -/
theorem pairedPeriod_eq (v : Half) : pairedPeriod v = v + 1#16 := by
  simp [pairedPeriod, BitVec.setWidth_add]

/-- A valid `tid` code names a timer, an invalid one none. -/
theorem timerOf_isSome (tid : BitVec 2) : (timerOf tid).isSome = validTid tid := by
  revert tid; decide

/-- A valid `clk` code names a prescale, an invalid one none. -/
theorem clockOf_isSome (clk : BitVec 3) : (clockOf clk).isSome = validClk clk := by
  revert clk; decide

/-- A valid `ch` code is a channel or none, an invalid one neither. -/
theorem channelOf_isSome (ch : BitVec 2) : (channelOf ch).isSome = validCh ch := by
  revert ch; decide

/-- A valid `src` code names a source, an invalid one none. -/
theorem sourceOf_isSome (src : BitVec 3) : (sourceOf src).isSome = validSrc src := by
  revert src; decide

/-- A valid `line` code names a line, an invalid one none. -/
theorem lineOf_isSome (line : BitVec 2) : (lineOf line).isSome = validLine line := by
  revert line; decide

/-- The clock field takes the code of the operand. -/
theorem clockCode_of (clk : BitVec 3) (k : ClockPrescale) (h : clockOf clk = some k) : clockCode k = clk := by
  revert clk k
  intro clk k; cases k <;> revert clk <;> decide

/-- The waveform-mode field takes the code of the operand. -/
@[simp] theorem modeCode_of (mode : BitVec 2) : modeCode (modeOf mode) = mode := by
  revert mode; decide

/-- The output-mode field takes the code of the operand. -/
@[simp] theorem outputModeCode_of (com : BitVec 2) : outputModeCode (outputModeOf com) = com := by
  revert com; decide

/-- The selector takes the code of the operand. -/
@[simp] theorem edgeCode_of (edge : BitVec 2) : edgeCode (edgeOf edge) = edge := by
  revert edge; decide

/-- A prescale's code is at most 5. -/
theorem clockCode_le (k : ClockPrescale) : (clockCode k).toNat ≤ 5 := by
  cases k <;> decide

/-- The callback word is the source above the handler. -/
theorem callWord_eq (x : Source) (h : Half) : callWord x h = sourceCode x ++ h := by
  apply BitVec.eq_of_getLsbD_eq
  intro i hi
  rw [BitVec.getLsbD_append]
  simp only [callWord, BitVec.getLsbD_or, BitVec.getLsbD_shiftLeft, BitVec.getLsbD_setWidth]
  rcases Nat.lt_or_ge i 16 with h1 | h1
  · have h2 : i < 19 := by omega
    simp [h1, h2]
  · have h2 : i - 16 < 19 := by omega
    simp [Nat.not_lt.mpr h1, hi, h2, BitVec.getLsbD_of_ge _ _ h1]

end Sys2Proof.Machine
end

