-- ==== Sys2Proof/Laws/State.lean ====
section
/-! SUPPORT. What each named update of the state leaves in each field, true by unfolding. -/

namespace Sys2Proof.Machine

open Sys2Proof

@[simp] theorem respond_block (st : Status) (d : Half) (s : State) : (respond st d s).block = s.block := rfl
@[simp] theorem respond_schedule (st : Status) (d : Half) (s : State) : (respond st d s).schedule = s.schedule := rfl
@[simp] theorem respond_arbDraws (st : Status) (d : Half) (s : State) : (respond st d s).arbDraws = s.arbDraws := rfl
@[simp] theorem respond_response (st : Status) (d : Half) (s : State) :
    (respond st d s).ports.response = some (responseWord st d) := rfl
@[simp] theorem respond_call (st : Status) (d : Half) (s : State) : (respond st d s).ports.call = none := rfl

@[simp] theorem quiet_block (s : State) : (quiet s).block = s.block := rfl
@[simp] theorem quiet_schedule (s : State) : (quiet s).schedule = s.schedule := rfl
@[simp] theorem quiet_arbDraws (s : State) : (quiet s).arbDraws = s.arbDraws := rfl
@[simp] theorem quiet_response (s : State) : (quiet s).ports.response = none := rfl
@[simp] theorem quiet_call (s : State) : (quiet s).ports.call = none := rfl

@[simp] theorem clearOwned8_iflg (r : Timer8) : (clearOwned8 r).iflg = r.iflg := rfl
@[simp] theorem clearOwned8_life (r : Timer8) : (clearOwned8 r).life = r.life := rfl
@[simp] theorem clearOwned16_iflg (r : Timer16) : (clearOwned16 r).iflg = r.iflg := rfl
@[simp] theorem clearOwned16_life (r : Timer16) : (clearOwned16 r).life = r.life := rfl

@[simp] theorem slotOf_setSlot_same (x : Source) (h : Half) (cb : Slots) : slotOf x (setSlot x h cb) = h := by
  cases x <;> rfl

/-- SETCB of one source leaves every other slot alone. -/
theorem slotOf_setSlot_other {x y : Source} (h : Half) (cb : Slots) (hne : y ≠ x) :
    slotOf y (setSlot x h cb) = slotOf y cb := by
  cases x <;> cases y <;> first | rfl | exact absurd rfl hne

@[simp] theorem lifeOf_setLife_same (t : TimerId) (v : BitVec 2) (b : Block) : lifeOf t (setLife t v b) = v := by
  cases t <;> rfl

/-- Writing one lifecycle leaves the others alone. -/
theorem lifeOf_setLife_other {t u : TimerId} (v : BitVec 2) (b : Block) (hne : u ≠ t) :
    lifeOf u (setLife t v b) = lifeOf u b := by
  cases t <;> cases u <;> first | rfl | exact absurd rfl hne

@[simp] theorem clockSelect_setLife (t u : TimerId) (v : BitVec 2) (b : Block) :
    clockSelect u (setLife t v b) = clockSelect u b := by
  cases t <;> cases u <;> rfl

@[simp] theorem writeFlag_cb (c : Cause) (v : Bool) (b : Block) : (writeFlag c v b).cb = b.cb := by cases c <;> rfl
@[simp] theorem writeFlag_seq (c : Cause) (v : Bool) (b : Block) : (writeFlag c v b).seq = b.seq := by cases c <;> rfl
@[simp] theorem enableOf_writeFlag (c d : Cause) (v : Bool) (b : Block) :
    enableOf d (writeFlag c v b) = enableOf d b := by cases c <;> cases d <;> rfl
@[simp] theorem clockSelect_writeFlag (c : Cause) (t : TimerId) (v : Bool) (b : Block) :
    clockSelect t (writeFlag c v b) = clockSelect t b := by cases c <;> cases t <;> rfl
@[simp] theorem lifeOf_writeFlag (c : Cause) (t : TimerId) (v : Bool) (b : Block) :
    lifeOf t (writeFlag c v b) = lifeOf t b := by cases c <;> cases t <;> rfl

end Sys2Proof.Machine
end

