-- ==== Sys2Proof/Laws/Ops.lean ====
section
/-! SUPPORT. What each shared operation can do, once: flags and causes, the clock field, the events, the dispatch entry,
the arbiter and the sequencer on its own. -/

namespace Sys2Proof.Machine

open Sys2Proof

/-! ### Causes and flags -/

/-- A cause is its pair of codes (R184). -/
theorem causeOf_codes (c : Cause) : causeOf (sourceCode (causeSource c)) (causeCode c) = some c := by
  cases c <;> rfl

/-- Codes that name a cause are that cause's codes (R184). -/
theorem codes_of_causeOf (src : BitVec 3) (code : BitVec 2) (c : Cause) (h : causeOf src code = some c) :
    src = sourceCode (causeSource c) ∧ code = causeCode c := by
  cases c <;> revert src code <;> decide

/-- Every cause is listed. -/
theorem mem_allCauses (c : Cause) : c ∈ allCauses := by cases c <;> decide

/-- The requesting set is what it says (R192). -/
theorem mem_requestingCauses (c : Cause) (b : Block) : c ∈ requestingCauses b ↔ requesting c b = true := by
  simp [requestingCauses, List.mem_filter, mem_allCauses]

/-- The flag just written reads back. -/
@[simp] theorem flagOf_writeFlag_same (c : Cause) (v : Bool) (b : Block) : flagOf c (writeFlag c v b) = v := by
  cases c <;> simp [flagOf, writeFlag]

/-- Writing one flag leaves every other flag alone (R196). -/
theorem flagOf_writeFlag_other {c d : Cause} (v : Bool) (b : Block) (h : d ≠ c) :
    flagOf d (writeFlag c v b) = flagOf d b := by
  cases c <;> cases d <;> first
    | exact absurd rfl h
    | rfl
    | exact getBit_putBit_other v _ (by decide)

/-- Clearing one cause's flag only takes that cause out of the requesting set. -/
theorem requesting_clearFlag (c d : Cause) (b : Block) :
    requesting d (clearFlag c b) = (requesting d b && decide (d ≠ c)) := by
  by_cases h : d = c
  · subst h; simp [requesting, clearFlag]
  · simp [requesting, clearFlag, flagOf_writeFlag_other false b h, h]

/-- A flag write changes flags only. -/
theorem withFlagsAndSeqOf_writeFlag (c : Cause) (v : Bool) (b : Block) :
    withFlagsAndSeqOf b (writeFlag c v b) = b := by cases c <;> rfl

/-! ### The clock field -/

/-- The clock field just written reads back. -/
@[simp] theorem clockSelect_setClockSelect_same (t : TimerId) (v : BitVec 3) (b : Block) :
    clockSelect t (setClockSelect t v b) = v := by
  cases t <;> simp [clockSelect, setClockSelect, getField_putField_same]

/-- Writing one timer's clock leaves the others alone. -/
theorem clockSelect_setClockSelect_other {t u : TimerId} (v : BitVec 3) (b : Block) (h : u ≠ t) :
    clockSelect u (setClockSelect t v b) = clockSelect u b := by
  cases t <;> cases u <;> first | rfl | exact absurd rfl h

/-- The clock field never touches the lifecycle. -/
@[simp] theorem lifeOf_setClockSelect (t u : TimerId) (v : BitVec 3) (b : Block) :
    lifeOf u (setClockSelect t v b) = lifeOf u b := by
  cases t <;> cases u <;> rfl

/-! ### Moves that are no command -/

/-- An event either is enabled and has its effect, or changes nothing (R186). -/
theorem raiseEvent_cases (e : Event) (s : State) :
    (eventEnabled e s.block = true ∧ raiseEvent e s = quiet { s with block := eventEffect e s.block }) ∨
      (eventEnabled e s.block = false ∧ raiseEvent e s = quiet s) := by
  unfold raiseEvent
  cases h : eventEnabled e s.block <;> simp

/-- A dispatch entry either clears the flag of an empty slot or calls the handler (R192). -/
theorem enterDispatch_cases (c : Cause) (s : State) :
    (slotOf (causeSource c) s.block.cb = 0 ∧ enterDispatch c s = quiet { s with block := clearFlag c s.block }) ∨
      (slotOf (causeSource c) s.block.cb ≠ 0 ∧ enterDispatch c s = { s with
        block := { s.block with seq :=
          { busy := true, src := sourceCode (causeSource c), cause := causeCode c
            hnd := slotOf (causeSource c) s.block.cb } }
        ports := { response := none, call := some (callWord (causeSource c) (slotOf (causeSource c) s.block.cb)) } }) := by
  by_cases h : slotOf (causeSource c) s.block.cb = 0
  · exact .inl ⟨h, if_pos h⟩
  · exact .inr ⟨h, if_neg h⟩

/-- A scheduled entry is taken if it is enabled and dropped if not (R191). -/
theorem dispatchMove_cases (c : Cause) (s : State) :
    (entryEnabled c s.block = true ∧ dispatchMove c s = enterDispatch c s) ∨
      (entryEnabled c s.block = false ∧ dispatchMove c s = quiet s) := by
  unfold dispatchMove
  cases h : entryEnabled c s.block <;> simp

/-- An entry is enabled exactly when the sequencer is idle and the cause requests. -/
theorem entryEnabled_iff (c : Cause) (b : Block) :
    entryEnabled c b = true ↔ b.seq.busy = false ∧ requesting c b = true := by
  simp [entryEnabled]

/-- The arbiter picks one of the causes it is given (R194). -/
theorem arbitrate_mem (n : Nat) (c : Cause) (cs : List Cause) : arbitrate n c cs ∈ c :: cs := by
  have h : n % (cs.length + 1) < (c :: cs).length := by
    simpa using Nat.mod_lt n (Nat.succ_pos cs.length)
  simp only [arbitrate, List.getElem?_eq_getElem h, Option.getD_some]
  exact List.getElem_mem h

/-- The sequencer on its own: it serves one requesting cause, or it is busy or has nothing to serve. -/
theorem sequencerAlone_cases (s : State) :
    ((s.block.seq.busy = true ∨ requestingCauses s.block = []) ∧ sequencerAlone s = quiet s) ∨
      ∃ c, s.block.seq.busy = false ∧ c ∈ requestingCauses s.block ∧
        sequencerAlone s = enterDispatch c { s with arbDraws := s.arbDraws + 1 } := by
  unfold sequencerAlone
  cases hb : s.block.seq.busy with
  | true => exact .inl ⟨.inl rfl, by simp⟩
  | false =>
    cases hr : requestingCauses s.block with
    | nil => exact .inl ⟨.inr rfl, by simp⟩
    | cons c cs =>
      exact .inr ⟨arbitrate (Config.arb s.arbDraws) c cs, rfl, arbitrate_mem _ _ _, by simp⟩

end Sys2Proof.Machine
end

