-- ==== Sys2Proof/Laws/PerInstr.lean ====
section
/-! SUPPORT. The family `Opcode`: the word of every command carries, in bits 63:60, the opcode its row of the opcode map
gives it (spec/30_encoding.md R90, R95), whatever its operands. One lemma per constructor. -/

namespace Sys2Proof.Laws.Opcode

open Sys2Proof

/-- The opcode column of R95. -/
def opcodeOf : Instr → BitVec 4
  | .tinit .. => 0x1
  | .tstart .. => 0x2
  | .tstop _ => 0x3
  | .tdeinit _ => 0x4
  | .tcmp .. => 0x5
  | .setcb .. => 0x6
  | .xinit .. => 0x7
  | .xdeinit _ => 0x8
  | .cbret => 0x9
  | .rdreg _ => 0xA

def Statement (i : Instr) : Prop := opField (encode i) = opcodeOf i

/-- The opcode field of every command's word, from the placing lemmas of Laws/Decode.lean. -/
theorem opField_encode (i : Instr) : Statement i := by
  cases i <;>
    simp (disch := omega) [Statement, opcodeOf, opField, encode, extractLsb'_or, extractLsb'_place_same,
      extractLsb'_place_other]

theorem tinit (tid mode : BitVec 2) (clk : BitVec 3) (com ch : BitVec 2) (ival cval : Half) :
    Statement (.tinit tid mode clk com ch ival cval) := opField_encode _

theorem tstart (tid : BitVec 2) (clk : BitVec 3) : Statement (.tstart tid clk) := opField_encode _

theorem tstop (tid : BitVec 2) : Statement (.tstop tid) := opField_encode _

theorem tdeinit (tid : BitVec 2) : Statement (.tdeinit tid) := opField_encode _

theorem tcmp (tid ch : BitVec 2) (cval : Half) : Statement (.tcmp tid ch cval) := opField_encode _

theorem setcb (src : BitVec 3) (hnd : Half) : Statement (.setcb src hnd) := opField_encode _

theorem xinit (line edge : BitVec 2) : Statement (.xinit line edge) := opField_encode _

theorem xdeinit (line : BitVec 2) : Statement (.xdeinit line) := opField_encode _

theorem cbret : Statement .cbret := opField_encode _

theorem rdreg (addr : BitVec 8) : Statement (.rdreg addr) := opField_encode _

end Sys2Proof.Laws.Opcode
end

