-- ==== Sys2Proof/Laws/Step.lean ====
section
/-! SUPPORT. What a command and a step can do to the block, once: the inversion lemmas later proofs cite. -/

namespace Sys2Proof.Machine

open Sys2Proof

/-- The effect a performed command has on the block; RDREG and a command that does not respond OK have none. -/
inductive CommandEffect : Instr → Block → Block → Prop where
  | tinit {tid mode clk com ch ival cval b} (x : TimerId) (k : ClockPrescale) (o : Option Channel) (u : CompareUnit)
      (hx : timerOf tid = some x) (hk : clockOf clk = some k) (ho : channelOf ch = some o) (hu : unitOf x o = some u) :
      CommandEffect (.tinit tid mode clk com ch ival cval) b
        (initUnit u (modeOf mode) k (outputModeOf com) ival cval b)
  | tstart {tid clk b} (x : TimerId) (k : ClockPrescale) (hx : timerOf tid = some x) (hk : clockOf clk = some k) :
      CommandEffect (.tstart tid clk) b (stepLife x lifeStopped lifeConfigured (setClockSelect x (clockCode k) b))
  | tstop {tid b} (x : TimerId) (hx : timerOf tid = some x) :
      CommandEffect (.tstop tid) b (stepLife x lifeConfigured lifeStopped (setClockSelect x 0 b))
  | tdeinit {tid b} (x : TimerId) (hx : timerOf tid = some x) :
      CommandEffect (.tdeinit tid) b (setLife x lifeUninit (clearOwned x b))
  | tcmp {tid ch cval b} (u : CompareUnit) (hx : timerOf tid = some (unitTimer u))
      (hc : ∀ y, u = .t1 y → channelOf ch = some (some y)) :
      CommandEffect (.tcmp tid ch cval) b (updateCompare u cval b)
  | setcb {src hnd b} (x : Source) (hx : sourceOf src = some x) :
      CommandEffect (.setcb src hnd) b { b with cb := setSlot x hnd b.cb }
  | xinit {line edge b} (l : Line) (hl : lineOf line = some l) (he : edgeSupported l (edgeOf edge) = true) :
      CommandEffect (.xinit line edge) b
        { b with ext := initLine (Config.pullup (lineIndex l)) l (edgeOf edge) b.ext }
  | xdeinit {line b} (l : Line) (hl : lineOf line = some l) :
      CommandEffect (.xdeinit line) b { b with ext := deinitLine l b.ext }
  | cbret {b} (hb : b.seq.busy = true) : CommandEffect .cbret b (returnFromDispatch b)

/-- Executing a command: it is performed with its effect and responds OK, or it is an RDREG that responds OK, or the block
stays and the response is one of the two errors. -/
theorem exec_cases (i : Instr) (s : State) :
    (∃ b, CommandEffect i s.block b ∧ exec i s = .next (respond .ok 0 { s with block := b })) ∨
      (∃ a v, i = .rdreg a ∧ readReg a s.block = some v ∧ exec i s = .next (respond .ok v s)) ∨
      (exec i s = .next (respond .configError 0 s)) ∨ (exec i s = .next (respond .ignored 0 s)) := by
  cases i with
  | tinit tid mode clk com ch ival cval =>
    cases hx : timerOf tid <;> cases hk : clockOf clk <;> cases ho : channelOf ch <;>
      simp only [exec, execTinit, hx, hk, ho]
    case some.some.some x k o =>
      cases hu : unitOf x o with
      | some u => exact .inl ⟨_, .tinit x k o u hx hk ho hu, rfl⟩
      | none => exact .inr (.inr (.inl rfl))
    all_goals exact .inr (.inr (.inr rfl))
  | tstart tid clk =>
    cases hx : timerOf tid <;> cases hk : clockOf clk <;> simp only [exec, execTstart, hx, hk]
    case some.some x k => exact .inl ⟨_, .tstart x k hx hk, rfl⟩
    all_goals exact .inr (.inr (.inr rfl))
  | tstop tid =>
    cases hx : timerOf tid <;> simp only [exec, execTstop, hx]
    case some x => exact .inl ⟨_, .tstop x hx, rfl⟩
    case none => exact .inr (.inr (.inr rfl))
  | tdeinit tid =>
    cases hx : timerOf tid <;> simp only [exec, execTdeinit, hx]
    case some x => exact .inl ⟨_, .tdeinit x hx, rfl⟩
    case none => exact .inr (.inr (.inr rfl))
  | tcmp tid ch cval =>
    cases hx : timerOf tid with
    | none => exact .inr (.inr (.inr (by simp only [exec, execTcmp, hx]; rfl)))
    | some x =>
      cases x with
      | t0 => exact .inl ⟨_, .tcmp .t0 hx (by simp), by simp only [exec, execTcmp, hx]; rfl⟩
      | t2 => exact .inl ⟨_, .tcmp .t2 hx (by simp), by simp only [exec, execTcmp, hx]; rfl⟩
      | t1 =>
        cases hc : channelOf ch with
        | none => exact .inr (.inr (.inr (by simp only [exec, execTcmp, hx, hc]; rfl)))
        | some o =>
          cases o with
          | none => exact .inr (.inr (.inr (by simp only [exec, execTcmp, hx, hc]; rfl)))
          | some y =>
            exact .inl ⟨_, .tcmp (.t1 y) hx (by simp [hc]), by simp only [exec, execTcmp, hx, hc]; rfl⟩
  | setcb src hnd =>
    cases hx : sourceOf src <;> simp only [exec, execSetcb, hx]
    case some x => exact .inl ⟨_, .setcb x hx, rfl⟩
    case none => exact .inr (.inr (.inr rfl))
  | xinit line edge =>
    cases hl : lineOf line with
    | none => exact .inr (.inr (.inr (by simp only [exec, execXinit, hl]; rfl)))
    | some l =>
      cases he : edgeSupported l (edgeOf edge) with
      | true => exact .inl ⟨_, .xinit l hl he, by simp only [exec, execXinit, hl, he]; rfl⟩
      | false => exact .inr (.inr (.inl (by simp only [exec, execXinit, hl, he]; rfl)))
  | xdeinit line =>
    cases hl : lineOf line <;> simp only [exec, execXdeinit, hl]
    case some l => exact .inl ⟨_, .xdeinit l hl, rfl⟩
    case none => exact .inr (.inr (.inr rfl))
  | cbret =>
    cases hb : s.block.seq.busy <;> simp only [exec, execCbret, hb]
    case true => exact .inl ⟨_, .cbret hb, rfl⟩
    case false => exact .inr (.inr (.inr rfl))
  | rdreg addr =>
    cases hv : readReg addr s.block <;> simp only [exec, execRdreg, hv]
    case some v => exact .inr (.inl ⟨addr, v, rfl, hv, rfl⟩)
    case none => exact .inr (.inr (.inr rfl))

/-- A command that can be performed is, and responds OK. -/
theorem exec_of_effect {i : Instr} {s : State} {b : Block} (h : CommandEffect i s.block b) :
    exec i s = .next (respond .ok 0 { s with block := b }) := by
  cases h with
  | tinit x k o u hx hk ho hu => simp only [exec, execTinit, hx, hk, ho, hu]; rfl
  | tstart x k hx hk => simp only [exec, execTstart, hx, hk]; rfl
  | tstop x hx => simp only [exec, execTstop, hx]; rfl
  | tdeinit x hx => simp only [exec, execTdeinit, hx]; rfl
  | tcmp u hx hc =>
    rcases u with _ | y | _
    · simp only [exec, execTcmp, hx, unitTimer]; rfl
    · simp only [exec, execTcmp, hx, unitTimer, hc y rfl]; rfl
    · simp only [exec, execTcmp, hx, unitTimer]; rfl
  | setcb x hx => simp only [exec, execSetcb, hx]; rfl
  | xinit l hl he => simp only [exec, execXinit, hl, he]; rfl
  | xdeinit l hl => simp only [exec, execXdeinit, hl]; rfl
  | cbret hb => simp only [exec, execCbret, hb]; rfl

/-- What a step from `s` that ends in `t` did to the block and to the callback port. -/
inductive StepEffect (s t : State) : Prop where
  /-- A command that is not performed or has no effect, a reserved opcode, a dropped move, or nothing to do. -/
  | same (hr : resetNext s = false) (hc : ∀ i b, currentCommand s = some i → ¬CommandEffect i s.block b)
      (hb : t.block = s.block) (hp : t.ports.call = none)
  /-- A command that was performed. -/
  | command (i : Instr) (hi : currentCommand s = some i) (hb : CommandEffect i s.block t.block)
      (hp : t.ports.call = none)
  /-- An enabled event of the environment. -/
  | event (e : Event) (he : eventNext s = some e) (hen : eventEnabled e s.block = true)
      (hb : t.block = eventEffect e s.block) (hp : t.ports.call = none)
  /-- A dispatch entry that found an empty slot. -/
  | emptyEntry (c : Cause) (hs : EntryNext c s) (he : entryEnabled c s.block = true)
      (h0 : slotOf (causeSource c) s.block.cb = 0) (hb : t.block = clearFlag c s.block) (hp : t.ports.call = none)
  /-- A dispatch entry that called a handler. -/
  | call (c : Cause) (hs : EntryNext c s) (he : entryEnabled c s.block = true)
      (h0 : slotOf (causeSource c) s.block.cb ≠ 0)
      (hb : t.block = { s.block with seq :=
        { busy := true, src := sourceCode (causeSource c), cause := causeCode c
          hnd := slotOf (causeSource c) s.block.cb } })
      (hp : t.ports.call = some (callWord (causeSource c) (slotOf (causeSource c) s.block.cb)))
  /-- A reset. -/
  | reset (hr : resetNext s = true) (hb : t.block = Block.reset) (hp : t.ports.call = none)

/-- A dispatch entry has one of its two effects. -/
theorem stepEffect_of_entry {s t u : State} {c : Cause} (hu : u.block = s.block) (hs : EntryNext c s)
    (he : entryEnabled c s.block = true) (ht : enterDispatch c u = t) : StepEffect s t := by
  rcases enterDispatch_cases c u with ⟨h0, h1⟩ | ⟨h0, h1⟩ <;> rw [h1] at ht <;> subst ht
  · exact .emptyEntry c hs he (hu ▸ h0) (by simp [hu]) rfl
  · exact .call c hs he (hu ▸ h0) (by simp [hu]) (by simp [hu])

/-- Everything one step can do. -/
theorem step_cases {s t : State} (h : step s = .next t) : StepEffect s t := by
  unfold step nextTurn at h
  cases hs : s.schedule with
  | nil =>
    simp only [hs] at h
    injection h with h
    rcases sequencerAlone_cases s with ⟨_, h1⟩ | ⟨c, hb, hc, h1⟩
    · exact .same (by simp [resetNext, hs]) (by simp [currentCommand, hs]) (by rw [← h, h1]; rfl) (by rw [← h, h1]; rfl)
    · exact stepEffect_of_entry (c := c) (u := { s with arbDraws := s.arbDraws + 1 }) rfl (.inl hs)
        ((entryEnabled_iff c s.block).2 ⟨hb, (mem_requestingCauses c s.block).1 hc⟩) (h1 ▸ h)
  | cons m rest =>
    cases m with
    | command w =>
      have hr : resetNext s = false := by simp [resetNext, hs]
      simp only [hs, acceptWord] at h
      cases hd : decode w with
      | error e =>
        simp only [hd] at h
        injection h with h
        exact .same hr (by simp [currentCommand, hs, hd, Except.toOption]) (by rw [← h]; rfl) (by rw [← h]; rfl)
      | ok i =>
        simp only [hd] at h
        have hc : currentCommand s = some i := by simp [currentCommand, hs, hd, Except.toOption]
        by_cases hq : ∃ b, CommandEffect i s.block b
        · obtain ⟨b, hb⟩ := hq
          rw [exec_of_effect (s := { s with schedule := rest }) hb] at h
          injection h with h
          exact .command i hc (by rw [← h]; exact hb) (by rw [← h]; rfl)
        have hq' : ∀ j b, currentCommand s = some j → ¬CommandEffect j s.block b := fun j b hj hb =>
          hq ⟨b, Option.some.inj (hc.symm.trans hj) ▸ hb⟩
        rcases exec_cases i { s with schedule := rest } with ⟨b, h1, h2⟩ | ⟨a, v, _, _, h2⟩ | h2 | h2 <;>
          rw [h2] at h <;> injection h with h
        · exact absurd ⟨b, h1⟩ hq
        all_goals exact .same hr hq' (by rw [← h]; rfl) (by rw [← h]; rfl)
    | event e =>
      simp only [hs] at h
      injection h with h
      rcases raiseEvent_cases e { s with schedule := rest } with ⟨h1, h2⟩ | ⟨_, h2⟩
      · exact .event e (by simp [eventNext, hs]) h1 (by rw [← h, h2]; rfl) (by rw [← h, h2]; rfl)
      · exact .same (by simp [resetNext, hs]) (by simp [currentCommand, hs]) (by rw [← h, h2]; rfl)
          (by rw [← h, h2]; rfl)
    | dispatch c =>
      simp only [hs] at h
      injection h with h
      rcases dispatchMove_cases c { s with schedule := rest } with ⟨h1, h2⟩ | ⟨_, h2⟩
      · exact stepEffect_of_entry (c := c) (u := { s with schedule := rest }) rfl (.inr ⟨rest, hs⟩) h1 (h2 ▸ h)
      · exact .same (by simp [resetNext, hs]) (by simp [currentCommand, hs]) (by rw [← h, h2]; rfl)
          (by rw [← h, h2]; rfl)
    | reset =>
      simp only [hs] at h
      injection h with h
      exact .reset (by simp [resetNext, hs]) (by rw [← h]; rfl) (by rw [← h]; rfl)

/-! ### Which move a step makes -/

/-- A dispatch entry is no command. -/
theorem currentCommand_of_entryNext {c : Cause} {s : State} (h : EntryNext c s) : currentCommand s = none := by
  rcases h with h | ⟨rest, h⟩ <;> simp [currentCommand, h]

/-- A dispatch entry is no reset. -/
theorem resetNext_of_entryNext {c : Cause} {s : State} (h : EntryNext c s) : resetNext s = false := by
  rcases h with h | ⟨rest, h⟩ <;> simp [resetNext, h]

/-- A reset is no command. -/
theorem currentCommand_of_resetNext {s : State} (h : resetNext s = true) : currentCommand s = none := by
  revert h
  unfold resetNext currentCommand
  split <;> simp_all

/-- An event is no command. -/
theorem currentCommand_of_eventNext {e : Event} {s : State} (h : eventNext s = some e) : currentCommand s = none := by
  revert h
  unfold eventNext currentCommand
  split <;> simp_all

/-- Executing a command leaves the schedule. -/
theorem exec_schedule {i : Instr} {s t : State} (h : exec i s = .next t) : t.schedule = s.schedule := by
  rcases exec_cases i s with ⟨b, _, h2⟩ | ⟨a, v, _, _, h2⟩ | h2 | h2 <;> rw [h2] at h <;> cases h <;> rfl

/-- Entering a dispatch leaves the schedule. -/
@[simp] theorem enterDispatch_schedule (c : Cause) (s : State) : (enterDispatch c s).schedule = s.schedule := by
  rcases enterDispatch_cases c s with ⟨_, h⟩ | ⟨_, h⟩ <;> simp [h]

/-- Every step takes one move from the schedule, if there is one. -/
theorem step_schedule {s t : State} (h : step s = .next t) : t.schedule = s.schedule.tail := by
  unfold step nextTurn at h
  cases hs : s.schedule with
  | nil =>
    simp only [hs] at h
    cases h
    rcases sequencerAlone_cases s with ⟨_, h1⟩ | ⟨c, _, _, h1⟩
    all_goals simp [h1, hs]
  | cons m rest =>
    cases m with
    | command w =>
      simp only [hs, acceptWord] at h
      cases hd : decode w <;> simp only [hd] at h
      case error => cases h; rfl
      case ok i => exact exec_schedule h
    | event e =>
      simp only [hs] at h
      cases h
      rcases raiseEvent_cases e { s with schedule := rest } with ⟨_, h1⟩ | ⟨_, h1⟩ <;> rw [h1] <;> rfl
    | dispatch c =>
      simp only [hs] at h
      cases h
      rcases dispatchMove_cases c { s with schedule := rest } with ⟨_, h1⟩ | ⟨_, h1⟩ <;> simp [h1]
    | reset =>
      simp only [hs] at h
      cases h
      rfl

end Sys2Proof.Machine
end

