-- ==== Sys2Proof/Tests/Slice0.lean ====
section
/-! SUPPORT. Tests. Words are written out from the field tables of spec/30_encoding.md R91 to R95; expected results are
rows of spec/95_test_vectors.md (named) or computed by hand from the rule named. The last part gives, for every obligation
with hypotheses, concrete states and operands that meet them. -/

namespace Sys2Proof.Tests

open Sys2Proof Sys2Proof.Machine

/-! ### Helpers -/

/-- The reset state with a block and a schedule of the test's own. -/
def put (b : Block) (ms : List Move) : State := { State.reset with block := b, schedule := ms }

/-- What a move makes of a state; the state itself should the machine stop (it never does). -/
def next (s : State) : State :=
  match step s with
  | .next t => t
  | .fault _ => s
  | .refused _ => s

/-- One move from a block. -/
def play (b : Block) (m : Move) : State := next (put b [m])

/-- The block after one move. -/
def playB (b : Block) (m : Move) : Block := (play b m).block

/-- T0 in FastPWM, clock /8, output mode Clear, compare 10, as TINIT leaves it (vector V-WRAP, step 1). -/
def pwm : Block :=
  { Block.reset with t0 :=
      { ctrl := 0x72, cnt := 0, ocr := 10, ocrl := 10, ien := 0b10, iflg := 0, pdir := 1, life := 1 } }

/-- T1 on channel B in FastPWM, clock /8, compare 99, as TINIT leaves it (vector V-WRAP, step 9). -/
def pair : Block :=
  { Block.reset with t1 :=
      { ctrla := 0x23, ctrlb := 0x02, cnt := 0, ocra := 100, ocrb := 99, ocrla := 100, ocrlb := 99, ien := 0b100
        iflg := 0, pdir := 0b10, life := 1 } }

/-- Lines 0 and 1 enabled and pending, a handler on EXT1 only. -/
def lines : Block :=
  { Block.reset with
    ext := { esc0 := 3, esc1 := 2, esc2 := 0, eien := 0b011, eiflg := 0b011, epdir := 0, epup := 0, xlife := 0b011 }
    cb := { Slots.reset with ext1 := 0x0B0B } }

/-- The same with the handler of EXT1 outstanding. -/
def inHandler : Block := { lines with seq := { busy := true, src := 4, cause := 0, hnd := 0x0B0B } }

/-! ### Well-formed commands: one ill-formed term for each check -/

theorem test_wf_tid : Instr.wellFormed (.tinit 3 0 1 0 0 0 0) = false := by decide
theorem test_wf_clk6 : Instr.wellFormed (.tstart 0 6) = false := by decide
theorem test_wf_clk7 : Instr.wellFormed (.tinit 0 0 7 0 1 0 0) = false := by decide
theorem test_wf_ch : Instr.wellFormed (.tinit 1 0 1 0 3 0 0) = false := by decide
theorem test_wf_tcmp_channel : Instr.wellFormed (.tcmp 1 0 5) = false := by decide
theorem test_wf_src6 : Instr.wellFormed (.setcb 6 1) = false := by decide
theorem test_wf_src7 : Instr.wellFormed (.setcb 7 1) = false := by decide
theorem test_wf_line : Instr.wellFormed (.xinit 3 3) = false := by decide
/-- `ch` of TCMP is unused on T0 (R96, R141). -/
theorem test_wf_tcmp_t0 : Instr.wellFormed (.tcmp 0 3 5) = true := by decide
/-- A bad pairing is no invalid code (R102). -/
theorem test_wf_pairing : Instr.wellFormed (.tinit 0 0 1 0 1 0 0) = true := by decide

/-! ### Decoding: words written field by field, high bits first (R91) -/

/-- op 0001, tid 01, mode 10, clk 010, com 01, ch 10, 0, ival 0x1234, cval 0x00C8, 0. -/
theorem test_decode_tinit :
    decode (0b0001#4 ++ 0b01#2 ++ 0b10#2 ++ 0b010#3 ++ 0b01#2 ++ 0b10#2 ++ 0#1 ++ 0x1234#16 ++ 0x00C8#16 ++ 0#16) =
      .ok (.tinit 1 2 2 1 2 0x1234 200) := by decide
/-- op 0010, tid 10, mode unused 11, clk 101, the rest unused 1s. -/
theorem test_decode_tstart :
    decode (0b0010#4 ++ 0b10#2 ++ 0b11#2 ++ 0b101#3 ++ BitVec.allOnes 53) = .ok (.tstart 2 5) := by decide
/-- op 0011, tid 01. -/
theorem test_decode_tstop : decode (0b0011#4 ++ 0b01#2 ++ 0#58) = .ok (.tstop 1) := by decide
/-- op 0100, tid 10. -/
theorem test_decode_tdeinit : decode (0b0100#4 ++ 0b10#2 ++ 0#58) = .ok (.tdeinit 2) := by decide
/-- op 0101, tid 01, 7 unused bits, ch 01, 17 unused bits, cval 0xFFFE, 16 unused bits. -/
theorem test_decode_tcmp :
    decode (0b0101#4 ++ 0b01#2 ++ 0#7 ++ 0b01#2 ++ 0#17 ++ 0xFFFE#16 ++ 0#16) = .ok (.tcmp 1 1 0xFFFE) := by decide
/-- op 0110, src 101, 41 reserved bits, hnd 0xFFFF (V-CB step 6). -/
theorem test_decode_setcb : decode (0b0110#4 ++ 0b101#3 ++ 0#41 ++ 0xFFFF#16) = .ok (.setcb 5 0xFFFF) := by decide
/-- op 0111, line 10, edge 11 (V-X step 7). -/
theorem test_decode_xinit : decode (0b0111#4 ++ 0b10#2 ++ 0b11#2 ++ 0#56) = .ok (.xinit 2 3) := by decide
/-- op 1000, line 10. -/
theorem test_decode_xdeinit : decode (0b1000#4 ++ 0b10#2 ++ 0#58) = .ok (.xdeinit 2) := by decide
/-- op 1001, the rest unused. -/
theorem test_decode_cbret : decode (0b1001#4 ++ BitVec.allOnes 60) = .ok .cbret := by decide
/-- op 1010, 52 reserved bits, addr 0x46. -/
theorem test_decode_rdreg : decode (0b1010#4 ++ 0#52 ++ 0x46#8) = .ok (.rdreg 0x46) := by decide
/-- V-RD steps 22 to 27: a reserved opcode is refused by name. -/
theorem test_decode_reserved :
    [0x0#64, 0xB000000000000000#64, 0xC000000000000000#64, 0xD000000000000000#64, 0xE000000000000000#64,
      0xFFFFFFFFFFFFFFFF#64].map decode =
      [0#4, 0xB#4, 0xC#4, 0xD#4, 0xE#4, 0xF#4].map (fun op => .error (.reservedOpcode op)) := by decide
/-- The encoder writes 0 in unused fields (R98; V-LIFE step 4). -/
theorem test_encode_tstart : encode (.tstart 0 2) = 0x2040000000000000#64 := by decide
/-- P4a step 4: an instruction as the table numbers its bits, placed where the next step takes it. -/
theorem test_table_word :
    decodeTableWord 64 0x7300000000000000 = some (.xinit 0 3) ∧
      (State.reset.withFetchWord 64 0x7300000000000000).schedule = [.command 0x7300000000000000#64] := by decide

/-! ### Commands -/

/-- TI6: 511 and 4660 are truncated to 8 bits. -/
theorem test_tinit_t0 :
    (playB Block.reset (.command 0x124801FF12340000#64)).t0 =
      { ctrl := 0x4A, cnt := 255, ocr := 52, ocrl := 52, ien := 0b10, iflg := 0, pdir := 0, life := 1 } := by decide
/-- TI21: the pairing wraps at 65535. -/
theorem test_tinit_t1_b :
    (playB Block.reset (.command 0x17540005FFFF0000#64)).t1 =
      { ctrla := 0x23, ctrlb := 0x02, cnt := 5, ocra := 0, ocrb := 65535, ocrla := 0, ocrlb := 65535, ien := 0b100
        iflg := 0, pdir := 0b10, life := 1 } := by decide
/-- V-LIFE step 7: NOCLK is accepted and leaves LIFE Configured. -/
theorem test_tstart_noclk :
    (playB pwm (.command 0x2000000000000000#64)).t0.ctrl = 0x70 ∧
      (playB pwm (.command 0x2000000000000000#64)).t0.life = 1 := by decide
/-- V-WRAP step 5. -/
theorem test_tstop :
    (playB pwm (.command 0x3000000000000000#64)).t0 = { pwm.t0 with ctrl := 0x70, life := 2 } := by decide
/-- V-LIFE step 16, with a flag that stays (R128). -/
theorem test_tdeinit :
    (playB { pair with t1 := { pair.t1 with iflg := 0b101 } } (.command 0x4400000000000000#64)).t1 =
      { Timer16.reset with iflg := 0b101 } := by decide
/-- V-TCMP step 3: 256 is truncated to 0; the latch stays. -/
theorem test_tcmp_t0 :
    (playB pwm (.command 0x5000000001000000#64)).t0.ocr = 0 ∧
      (playB pwm (.command 0x5000000001000000#64)).t0.ocrl = 10 := by decide
/-- V-TCMP steps 12 and 13: channel A alone; no channel on T1 is IGNORED. -/
theorem test_tcmp_t1 :
    (playB pair (.command 0x5402000000070000#64)).t1 = { pair.t1 with ocra := 7 } ∧
      (play pair (.command 0x5400000000050000#64)).ports.response = some 0x80000000 := by decide
/-- V-CB step 5. -/
theorem test_setcb :
    (playB lines (.command 0x6800000000001234#64)).cb = { Slots.reset with ext1 := 0x1234 } := by decide
/-- V-X step 1, both values of `PULLUP[0]`, and step 7. -/
theorem test_xinit_effect :
    initLine true .line0 .lowLevel ExtLines.reset = { ExtLines.reset with eien := 1, epup := 1, xlife := 1 } ∧
      initLine false .line0 .lowLevel ExtLines.reset = { ExtLines.reset with eien := 1, xlife := 1 } ∧
      (initLine true .line2 .rising ExtLines.reset).esc2 = 1 := by decide
/-- V-X step 8: line 2 with LowLevel, and step 10: line 3. -/
theorem test_xinit_errors :
    (play lines (.command 0x7800000000000000#64)).ports.response = some 0x40000000 ∧
      (play lines (.command 0x7F00000000000000#64)).ports.response = some 0x80000000 := by decide
/-- P3 step 15; the flags stay (R163). -/
theorem test_xdeinit :
    (playB lines (.command 0x8400000000000000#64)).ext =
      { lines.ext with esc1 := 0, eien := 0b001, xlife := 0b001 } := by decide
/-- P3 step 12: the flag of line 1 only. -/
theorem test_cbret :
    playB inHandler (.command 0x9000000000000000#64) = { lines with ext := { lines.ext with eiflg := 0b001 } } := by decide
/-- V-D1 step 14. -/
theorem test_cbret_idle : (play lines (.command 0x9000000000000000#64)).ports.response = some 0x80000000 := by decide
/-- P3 step 7, and V-RD step 11: 0x07 is unmapped. -/
theorem test_rdreg :
    (play inHandler (.command 0xA000000000000046#64)).ports.response = some 0x00008040 ∧
      (play inHandler (.command 0xA000000000000007#64)).ports.response = some 0x80000000 := by decide
/-- TE6: an invalid code goes before the pairing; TE1: the pairing. -/
theorem test_tinit_errors :
    (play pwm (.command 0x10E2000000000000#64)).ports.response = some 0x80000000 ∧
      (play pwm (.command 0x1342000000000000#64)).ports.response = some 0x40000000 := by decide

/-! ### Events, dispatch, reset -/

/-- P1 step 5. -/
theorem test_count : (playB pwm (.event (.count .t0 200))).t0.cnt = 200 := by decide
/-- V-WRAP step 11: both latches in one event. -/
theorem test_wrap :
    (playB { pair with t1 := { pair.t1 with ocra := 200, ocrb := 199 } } (.event (.wrap .t1))).t1.ocrla = 200 ∧
      (playB { pair with t1 := { pair.t1 with ocra := 200, ocrb := 199 } } (.event (.wrap .t1))).t1.ocrlb = 199 := by
  decide
/-- V-WRAP, its note on steps 5 to 8: no event of a halted timer. -/
theorem test_wrap_halted : playB { pwm with t0 := { pwm.t0 with ctrl := 0x70, ocr := 40 } } (.event (.wrap .t0)) =
    { pwm with t0 := { pwm.t0 with ctrl := 0x70, ocr := 40 } } := by decide
/-- V-D2 step 9. -/
theorem test_cmp : (playB pair (.event (.cmp (.t1 .b)))).t1.iflg = 0b100 := by decide
/-- P3 step 6. -/
theorem test_entry :
    (play lines (.dispatch .ext1)).ports.call = some 0x40B0B ∧
      playB lines (.dispatch .ext1) = inHandler := by decide
/-- P1 step 8, on line 0, whose slot is empty. -/
theorem test_entry_empty :
    playB lines (.dispatch .ext0) = { lines with ext := { lines.ext with eiflg := 0b010 } } := by decide
/-- P3 step 11: no entry while a handler is outstanding. -/
theorem test_entry_busy : playB inHandler (.dispatch .ext0) = inHandler := by decide
/-- V-RST. -/
theorem test_reset : playB inHandler .reset = Block.reset := by decide
/-- Any of the requesting causes can be the arbiter's choice (R194; P4a, P4b). -/
theorem test_arbitrate : arbitrate 0 .ovf0 [.ext0] = .ovf0 ∧ arbitrate 7 .ovf0 [.ext0] = .ext0 := by decide
/-- R188: the contract of the pad logic. -/
theorem test_pad : padRaises .falling true false = true ∧ padRaises .rising true false = false ∧
    padRaises .lowLevel false false = true := by decide

/-! ### Witnesses -/

/-- TstartResult, TinitRegisterImage, InitsReachTheOutputs, ChannelBWritesEstablishThePair: a legal clock. -/
theorem witness_clock : (5#3 : BitVec 3) ≠ 6#3 ∧ (5#3 : BitVec 3) ≠ 7#3 ∧ ((3#2 : BitVec 2) = 2#2 ∨ (3#2 : BitVec 2) = 3#2) := by
  decide

/-- XinitResult, TcmpResult: each operand clause is met. -/
theorem witness_operand_codes :
    ((2#2 : BitVec 2) = 2#2 ∨ (2#2 : BitVec 2) = 3#2) ∧ ((1#2 : BitVec 2) = 0#2 ∨ (1#2 : BitVec 2) = 1#2) ∧
      ((3#2 : BitVec 2) = 0#2 ∨ (3#2 : BitVec 2) = 3#2) := by decide

/-- The result statements' encoding clauses: a word of each opcode, spec/30_encoding.md R95. -/
theorem witness_opcodes :
    [0x1350000000000000#64, 0x2040000000000000#64, 0x3000000000000000#64, 0x4000000000000000#64, 0x5404000000630000#64,
      0x6800000000001234#64, 0x7600000000000000#64, 0x8400000000000000#64, 0x9000000000000000#64,
      0xA000000000000012#64].map (·.extractLsb' 60 4) = [0x1, 0x2, 0x3, 0x4, 0x5, 0x6, 0x7, 0x8, 0x9, 0xA] := by decide

/-- UnusedBitsAreIgnored: a word and a second one that differs in unused bits only (V-LIFE2 step 11). -/
theorem witness_UnusedBitsAreIgnored :
    decode 0x33FFFFFFFFFFFFFF#64 = .ok (.tstop 0) ∧
      0x3000000000000000#64 &&& usedMask (.tstop 0) = 0x33FFFFFFFFFFFFFF#64 &&& usedMask (.tstop 0) := by decide

/-- `ch` of a TCMP on T0 written `-`, `A`, `B` and as the number 3 (V-TCMP steps 5 to 8; log entry 22). -/
theorem test_tcmp_unused_channel :
    [(52, Operand.sym .dash), (128, .sym .a), (64, .sym .b), (32, .num 3)].map
        (fun p => (assemble .tcmp [.sym .t0, .num p.1, p.2]).map encode) =
      [some 0x5000000000340000#64, some 0x5002000000800000#64, some 0x5004000000400000#64,
        some 0x5006000000200000#64] := by decide

/-- ReservedOpcodesAreNoOps: a reserved opcode, and one that is not. -/
theorem witness_ReservedOpcodesAreNoOps :
    (put pwm [.command 0xB000000000000000#64]).schedule = .command 0xB000000000000000#64 :: [] ∧
      (0xB000000000000000#64).extractLsb' 60 4 ∈ [0x0#4, 0xB#4, 0xC#4, 0xD#4, 0xE#4, 0xF#4] ∧
      (0xA000000000000000#64).extractLsb' 60 4 ∉ [0x0#4, 0xB#4, 0xC#4, 0xD#4, 0xE#4, 0xF#4] := by decide

/-- InvalidCodesAreNoOps: an invalid clock beside a pairing error (TE6). -/
theorem witness_InvalidCodesAreNoOps : Instr.wellFormed (.tinit 0 0 7 0 1 0 0) = false := by decide

/-- StepRunsTheDecodedCommand, OneResponsePerWord: RDREG of a mapped and of an unmapped address. -/
theorem witness_StepRunsTheDecodedCommand :
    (put inHandler [.command 0xA000000000000046#64]).schedule = .command 0xA000000000000046#64 :: [] ∧
      decode 0xA000000000000046#64 = .ok (.rdreg 0x46) ∧ readReg 0x46 inHandler = some 0x8040 ∧
      decode 0xA000000000000007#64 = .ok (.rdreg 0x07) ∧ readReg 0x07 inHandler ≠ some 0 := by decide

/-- ResponseStatusIsClassified, ErrorsLeaveTheBlockUnchanged: each of the four cases. -/
theorem witness_ResponseStatusIsClassified :
    (∃ e, decode 0x0#64 = .error e) ∧
      (decode 0x9000000000000000#64 = .ok .cbret ∧ ignoredCause .cbret lines = true) ∧
      (decode 0x7800000000000000#64 = .ok (.xinit 2 0) ∧ ignoredCause (.xinit 2 0) lines = false ∧
        pairingError (.xinit 2 0) = true) ∧
      (decode 0x3000000000000000#64 = .ok (.tstop 0) ∧ ignoredCause (.tstop 0) lines = false ∧
        pairingError (.tstop 0) = false) := ⟨⟨_, rfl⟩, by decide⟩

/-- StopThenStartRestores: T0 Configured with clock /8. -/
theorem witness_StopThenStartRestores :
    timerOf 0 = some .t0 ∧ (clockSelect .t0 pwm).toNat ≤ 5 ∧ lifeOf .t0 pwm = 1#2 := by decide

/-- TinitLeavesNoResidue: T1, channel A. -/
theorem witness_TinitLeavesNoResidue :
    timerOf 1 = some .t1 ∧ (Instr.tinit 1 2 2 1 1 0 50).wellFormed = true ∧
      pairingError (.tinit 1 2 2 1 1 0 50) = false := by decide

/-- UpdateTakesEffectAtWrap: two updates of T1 channel B, of channel A, and of T0 before a wrap. -/
theorem witness_UpdateTakesEffectAtWrap :
    (decode 0x5404000000C70000#64 = .ok (.tcmp 1 2 199) ∧ decode 0x54040000FFFF0000#64 = .ok (.tcmp 1 2 65535) ∧
      decode 0x5402000000070000#64 = .ok (.tcmp 1 1 7) ∧ timerOf 1 = some .t1 ∧ clockSelect .t1 pair ≠ 0#3 ∧
      (put pair [.command 0x5404000000C70000#64, .command 0x54040000FFFF0000#64, .event (.wrap .t1)]).schedule =
        .command 0x5404000000C70000#64 :: .command 0x54040000FFFF0000#64 :: .event (.wrap .t1) :: []) ∧
      (decode 0x5000000000140000#64 = .ok (.tcmp 0 0 20) ∧ decode 0x50000000001E0000#64 = .ok (.tcmp 0 0 30) ∧
        timerOf 0 = some .t0 ∧ clockSelect .t0 pwm ≠ 0#3) := by decide

/-- LastRegistrationWins (scenario B), both orders. -/
theorem witness_LastRegistrationWins :
    decode 0x6800000000000A0A#64 = .ok (.setcb 4 0x0A0A) ∧ decode 0x6800000000000B0B#64 = .ok (.setcb 4 0x0B0B) ∧
      sourceOf 4 = some (causeSource .ext1) ∧ lines.seq.busy = false ∧ requesting .ext1 lines = true ∧
      (0x0A0A#16 : Half) ≠ 0#16 ∧ (0x0B0B#16 : Half) ≠ 0#16 ∧
      (put lines [.command 0x6800000000000A0A#64, .command 0x6800000000000B0B#64, .dispatch .ext1]).schedule =
        .command 0x6800000000000A0A#64 :: .command 0x6800000000000B0B#64 :: .dispatch .ext1 :: [] ∧
      (put lines [.command 0x6800000000000A0A#64, .dispatch .ext1, .command 0x6800000000000B0B#64]).schedule =
        .command 0x6800000000000A0A#64 :: .dispatch .ext1 :: .command 0x6800000000000B0B#64 :: [] := by decide

/-- CbretResult: a handler outstanding for EXT1, and none. -/
theorem witness_CbretResult :
    inHandler.seq.busy = true ∧ inHandler.seq.src = sourceCode (causeSource .ext1) ∧
      inHandler.seq.cause = causeCode .ext1 ∧ lines.seq.busy = false := by decide

/-- RdregResult: the ends of the unmapped ranges and their mapped neighbours (R171). -/
theorem witness_RdregResult :
    [0x07#8, 0x0F#8, 0x19#8, 0x1F#8, 0x27#8, 0x2F#8, 0x38#8, 0x3F#8, 0x48#8, 0xFF#8].all unmapped = true ∧
      [0x00#8, 0x06#8, 0x10#8, 0x18#8, 0x20#8, 0x26#8, 0x30#8, 0x37#8, 0x40#8, 0x47#8].any unmapped = false := by decide

/-- EventEffects: a clocked timer of each kind. -/
theorem witness_EventEffects :
    (put pwm [.event (.count .t0 300)]).schedule = .event (.count .t0 300) :: [] ∧
      pwm.t0.ctrl.extractLsb' 0 3 ≠ 0#3 ∧ pair.t1.ctrlb.extractLsb' 0 3 ≠ 0#3 ∧ pwm.t1.ctrlb.extractLsb' 0 3 = 0#3 := by
  decide

/-- CauseTable: a pair of codes that is a cause. -/
theorem witness_CauseTable : causeOf 1 2 = some .cmpb1 := by decide

/-- DispatchEntry: line 1 has a handler, line 0 an empty slot. -/
theorem witness_DispatchEntry :
    (put lines [.dispatch .ext1]).schedule = .dispatch .ext1 :: [] ∧ lines.seq.busy = false ∧
      requesting .ext1 lines = true ∧ slotOf (causeSource .ext1) lines.cb ≠ 0#16 ∧
      requesting .ext0 lines = true ∧ slotOf (causeSource .ext0) lines.cb = 0#16 := by decide

/-- NoEntryWhenNotEnabled: busy with the cause requesting; idle with it not requesting. -/
theorem witness_NoEntryWhenNotEnabled :
    (put inHandler [.dispatch .ext0]).schedule = .dispatch .ext0 :: [] ∧ inHandler.seq.busy = true ∧
      requesting .ext2 lines = false := by decide

/-- SequencerServesOnItsOwn, SequencerDrainsInTenSteps: nothing scheduled; two causes requesting, or a handler, or none. -/
theorem witness_SequencerServesOnItsOwn :
    (put lines []).schedule = [] ∧ lines.seq.busy = false ∧ requestingCauses lines = [.ext0, .ext1] ∧
      inHandler.seq.busy = true ∧ requestingCauses pwm = [] := by decide

/-- NoNesting: a TSTOP inside a handler. -/
theorem witness_NoNesting :
    ∃ t, step (put inHandler [.command 0x3000000000000000#64]) = .next t ∧ inHandler.seq.busy = true ∧
      currentCommand (put inHandler [.command 0x3000000000000000#64]) ≠ some .cbret ∧
      resetNext (put inHandler [.command 0x3000000000000000#64]) = false := ⟨_, rfl, by decide⟩

/-- BusyChangesOnlyAtEntryAndReturn: a step that makes it busy and one that makes it idle. -/
theorem witness_BusyChangesOnlyAtEntryAndReturn :
    (∃ t, step (put lines [.dispatch .ext1]) = .next t ∧ lines.seq.busy = false ∧ t.block.seq.busy = true ∧
      t.ports.call ≠ none) ∧
      ∃ t, step (put inHandler [.command 0x9000000000000000#64]) = .next t ∧ inHandler.seq.busy = true ∧
        t.block.seq.busy = false := ⟨⟨_, rfl, by decide⟩, ⟨_, rfl, by decide⟩⟩

/-- FlagsFallOnlyByDispatch: by CBRET, by a scheduled entry with an empty slot and by reset. -/
theorem witness_FlagsFallOnlyByDispatch :
    (∃ t, step (put inHandler [.command 0x9000000000000000#64]) = .next t ∧ flagOf .ext1 inHandler = true ∧
      flagOf .ext1 t.block = false) ∧
      (∃ t, step (put lines [.dispatch .ext0]) = .next t ∧ flagOf .ext0 lines = true ∧ flagOf .ext0 t.block = false) ∧
      ∃ t, step (put lines [.reset]) = .next t ∧ flagOf .ext0 lines = true ∧ flagOf .ext0 t.block = false :=
  ⟨⟨_, rfl, by decide⟩, ⟨_, rfl, by decide⟩, ⟨_, rfl, by decide⟩⟩

/-- FlagsFallOnlyByDispatch: by the sequencer's own entry, whatever the arbiter answers, as line 0 is the only cause. -/
theorem witness_FlagsFallOnlyByDispatch_alone :
    ∃ t, step (put { lines with ext := { lines.ext with eiflg := 0b001 } } []) = .next t ∧
      flagOf .ext0 { lines with ext := { lines.ext with eiflg := 0b001 } } = true ∧ flagOf .ext0 t.block = false := by
  refine ⟨_, rfl, rfl, ?_⟩
  show flagOf .ext0 (enterDispatch (arbitrate (Config.arb 0) .ext0 []) _).block = false
  rw [show arbitrate (Config.arb 0) .ext0 [] = .ext0 by simp [arbitrate, Nat.mod_one]]
  rfl

/-- FlagsRiseOnlyByEvents: an overflow, a compare match and an external event. -/
theorem witness_FlagsRiseOnlyByEvents :
    (∃ t, step (put pwm [.event (.ovf .t0)]) = .next t ∧ flagOf .ovf0 pwm = false ∧ flagOf .ovf0 t.block = true) ∧
      (∃ t, step (put pair [.event (.cmp (.t1 .b))]) = .next t ∧ flagOf .cmpb1 pair = false ∧
        flagOf .cmpb1 t.block = true) ∧
      ∃ t, step (put pwm [.event (.ext .line2)]) = .next t ∧ flagOf .ext2 pwm = false ∧ flagOf .ext2 t.block = true :=
  ⟨⟨_, rfl, by decide⟩, ⟨_, rfl, by decide⟩, ⟨_, rfl, by decide⟩⟩

/-- EnablesChangeOnlyByConfiguration: TINIT sets one and clears one, TDEINIT clears one. -/
theorem witness_EnablesChangeOnlyByConfiguration :
    (∃ t, step (put Block.reset [.command 0x1020000000000000#64]) = .next t ∧ enableOf .ovf0 Block.reset = false ∧
      enableOf .ovf0 t.block = true) ∧
      (∃ t, step (put pwm [.command 0x1020000000000000#64]) = .next t ∧ enableOf .cmp0 pwm = true ∧
        enableOf .cmp0 t.block = false) ∧
      ∃ t, step (put pwm [.command 0x4000000000000000#64]) = .next t ∧ enableOf .cmp0 pwm = true ∧
        enableOf .cmp0 t.block = false := ⟨⟨_, rfl, by decide⟩, ⟨_, rfl, by decide⟩, ⟨_, rfl, by decide⟩⟩

/-- EnablesChangeOnlyByConfiguration: XINIT sets one, XDEINIT and a reset clear one. -/
theorem witness_EnablesChangeOnlyByConfiguration_lines :
    (∃ t, step (put Block.reset [.command 0x7600000000000000#64]) = .next t ∧ enableOf .ext1 Block.reset = false ∧
      enableOf .ext1 t.block = true) ∧
      (∃ t, step (put lines [.command 0x8400000000000000#64]) = .next t ∧ enableOf .ext1 lines = true ∧
        enableOf .ext1 t.block = false) ∧
      ∃ t, step (put lines [.reset]) = .next t ∧ enableOf .ext1 lines = true ∧ enableOf .ext1 t.block = false :=
  ⟨⟨_, rfl, rfl, rfl⟩, ⟨_, rfl, by decide⟩, ⟨_, rfl, by decide⟩⟩

/-- SlotsWrittenOnlyBySetcb. -/
theorem witness_SlotsWrittenOnlyBySetcb :
    ∃ t, step (put lines [.command 0x6800000000000A0A#64]) = .next t ∧
      slotOf .ext1 t.block.cb ≠ slotOf .ext1 lines.cb := ⟨_, rfl, by decide⟩

/-- CountersWrittenOnlyAsListed: a count event. -/
theorem witness_CountersWrittenOnlyAsListed :
    ∃ t, step (put pwm [.event (.count .t0 200)]) = .next t ∧ counterOf .t0 t.block ≠ counterOf .t0 pwm :=
  ⟨_, rfl, by decide⟩

/-- LatchesWrittenOnlyAsListed: a wrap with a changed buffer. -/
theorem witness_LatchesWrittenOnlyAsListed :
    ∃ t, step (put { pwm with t0 := { pwm.t0 with ocr := 30 } } [.event (.wrap .t0)]) = .next t ∧
      latchOf .t0 t.block ≠ latchOf .t0 { pwm with t0 := { pwm.t0 with ocr := 30 } } := ⟨_, rfl, by decide⟩

/-- LifecycleFollowsTheStateMachine: a TSTOP, and a TDEINIT. -/
theorem witness_LifecycleFollowsTheStateMachine :
    (∃ t, step (put pwm [.command 0x3000000000000000#64]) = .next t ∧ lifeOf .t0 t.block ≠ lifeOf .t0 pwm) ∧
      ∃ t, step (put pwm [.command 0x4000000000000000#64]) = .next t ∧ lifeOf .t0 t.block ≠ lifeOf .t0 pwm :=
  ⟨⟨_, rfl, by decide⟩, ⟨_, rfl, by decide⟩⟩

/-- PullUpsStayUntilReset: an XDEINIT of a line with its pull-up on (V-X step 11), and for the second clause an XINIT of
line 0 where `PULLUP[0]` is true. -/
theorem witness_PullUpsStayUntilReset :
    (resetNext (put { lines with ext := { lines.ext with epup := 0b001 } } [.command 0x8000000000000000#64]) = false ∧
      ∃ t, step (put { lines with ext := { lines.ext with epup := 0b001 } } [.command 0x8000000000000000#64]) = .next t) ∧
      (Config.pullup 0 = true → ∃ t, step (put lines [.command 0x7300000000000000#64]) = .next t ∧
        getBit 0 lines.ext.epup = false ∧ getBit 0 t.block.ext.epup = true) := by
  refine ⟨⟨rfl, _, rfl⟩, fun h => ⟨_, rfl, rfl, ?_⟩⟩
  show getBit 0 (initLine (Config.pullup 0) .line0 .rising lines.ext).epup = true
  rw [h]
  decide

/-- CommandsIgnoreInterruptContext: TSTOP, and RDREG of the slot of EXT1. -/
theorem witness_CommandsIgnoreInterruptContext :
    (Instr.tstop 0 ≠ .cbret ∧ Instr.tstop 0 ≠ .rdreg 0x46#8 ∧ Instr.tstop 0 ≠ .rdreg 0x47#8) ∧
      Instr.rdreg 0x44 ≠ .cbret ∧ Instr.rdreg 0x44 ≠ .rdreg 0x46#8 ∧ Instr.rdreg 0x44 ≠ .rdreg 0x47#8 := by decide

/-- UnendedHandlerHangsForEver: a handler outstanding; an event and a TSTOP still to come. -/
theorem witness_UnendedHandlerHangsForEver :
    inHandler.seq.busy = true ∧ NeverReturns [.event (.ext .line0), .command 0x3000000000000000#64] := by
  refine ⟨rfl, ?_⟩
  intro m hm
  rcases List.mem_cons.mp hm with rfl | hm
  · exact ⟨by decide, by intro w h; cases h⟩
  · rcases List.mem_singleton.mp hm with rfl
    exact ⟨by decide, by intro w h; cases h; decide⟩

/-- EndedHandlerFreesTheSequencer: a handler outstanding that returns after an event; its CBRET is the second move. -/
theorem witness_EndedHandlerFreesTheSequencer :
    inHandler.seq.busy = true ∧
      HandlerEnds 2 (put inHandler [.event (.ext .line0), .command 0x9000000000000000#64]).schedule :=
  ⟨rfl, [.event (.ext .line0)], 0x9000000000000000#64, [], rfl, by decide, by decide⟩

/-- EachReturnEndsItsOwnHandler: an entry right after reset, and the CBRET of the one handler. -/
theorem witness_EachReturnEndsItsOwnHandler :
    (CallsMatch noCalls lines ∧ ReturnDuty noCalls 0 (put lines [.dispatch .ext1]) ∧
      ∃ t, step (put lines [.dispatch .ext1]) = .next t ∧
        callsAfter 0 (put lines [.dispatch .ext1]) t noCalls = { called := 1, owing := [0] }) ∧
      CallsMatch { called := 1, owing := [0] } inHandler ∧
      ReturnDuty { called := 1, owing := [0] } 0 (put inHandler [.command 0x9000000000000000#64]) ∧
      currentCommand (put inHandler [.command 0x9000000000000000#64]) = some .cbret ∧
      ∃ t, step (put inHandler [.command 0x9000000000000000#64]) = .next t :=
  ⟨⟨⟨fun h => absurd h (by decide), fun _ => rfl⟩, fun h => absurd h (by decide), _, rfl, by decide⟩,
    ⟨fun _ => ⟨0, rfl, rfl⟩, fun h => absurd h (by decide)⟩, fun _ => by decide, rfl, _, rfl⟩

/-- The duty forbids the second CBRET of R233: call 0 has returned, call 1 is outstanding, and call 0 sends another. -/
theorem test_second_return_breaks_duty :
    CallsMatch { called := 2, owing := [1] } inHandler ∧
      ¬ReturnDuty { called := 2, owing := [1] } 0 (put inHandler [.command 0x9000000000000000#64]) :=
  ⟨⟨fun _ => ⟨1, rfl, rfl⟩, fun h => absurd h (by decide)⟩, fun h => absurd (h rfl) (by decide)⟩

/-- ResetClearsTheBlock: a reset inside a handler. -/
theorem witness_ResetClearsTheBlock :
    (put inHandler [.reset, .command 0x9000000000000000#64]).schedule = .reset :: [.command 0x9000000000000000#64] := rfl

/-- NothingRunsWithoutCommands: an external event right after reset. -/
theorem witness_NothingRunsWithoutCommands :
    Dormant Block.reset ∧ (∀ w rest, (put Block.reset [.event (.ext .line1)]).schedule ≠ .command w :: rest) ∧
      resetNext (put Block.reset [.event (.ext .line1)]) = false ∧
      ∃ t, step (put Block.reset [.event (.ext .line1)]) = .next t := by
  refine ⟨by decide, ?_, rfl, _, rfl⟩
  intro w rest h
  simp [put] at h

/-- StandingInvariantsKept: a configured timer, and a handler outstanding. -/
theorem witness_StandingInvariantsKept :
    (Standing pair ∧ ∃ t, step (put pair [.command 0x3400000000000000#64]) = .next t) ∧
      (Standing inHandler ∧ ∃ t, step (put inHandler [.command 0x9000000000000000#64]) = .next t) :=
  ⟨⟨by decide, _, rfl⟩, ⟨by decide, _, rfl⟩⟩

/-- UninitTimersStayZero: a TSTART to a configured timer. -/
theorem witness_UninitTimersStayZero :
    UninitIsZero pwm ∧ LifecycleDuty (put pwm [.command 0x2040000000000000#64]) ∧
      ∃ t, step (put pwm [.command 0x2040000000000000#64]) = .next t := by
  refine ⟨by decide, ?_, _, rfl⟩
  intro t ht
  cases t <;> revert ht <;> decide

/-- PairingKept: an update of channel B. -/
theorem witness_PairingKept :
    Paired pair ∧ ChannelBDuty (put pair [.command 0x5404000000C70000#64]) ∧
      resetNext (put pair [.command 0x5404000000C70000#64]) = false ∧
      ∃ t, step (put pair [.command 0x5404000000C70000#64]) = .next t := by
  refine ⟨by decide, ?_, rfl, _, rfl⟩
  intro _
  decide

/-- T1ChannelKept: T1 on channel B, an update of B; no TINIT in force, a TINIT of channel A; and channel A, an update of
A. -/
theorem witness_T1ChannelKept :
    (T1Match (some (.b, .fastPwm)) pair ∧
      OneChannelDuty (some (.b, .fastPwm)) (put pair [.command 0x5404000000C70000#64]) ∧
      ∃ t, step (put pair [.command 0x5404000000C70000#64]) = .next t) ∧
      (T1Match none Block.reset ∧ OneChannelDuty none (put Block.reset [.command 0x164A000000630000#64]) ∧
        t1After (put Block.reset [.command 0x164A000000630000#64]) none = some (.a, .compare)) ∧
      T1Match (some (.a, .compare)) (playB Block.reset (.command 0x164A000000630000#64)) ∧
      OneChannelDuty (some (.a, .compare)) (put (playB Block.reset (.command 0x164A000000630000#64))
        [.command 0x5402000000070000#64]) :=
  ⟨⟨fun _ => by decide, fun _ => ⟨_, _, rfl, rfl⟩, _, rfl⟩, ⟨trivial, trivial, rfl⟩, ⟨by decide, by decide⟩,
    fun _ => ⟨_, _, rfl, rfl⟩⟩

/-- The duty forbids the TCMP of V-TCMP step 12: channel A after a configuration with channel B (R231). -/
theorem test_other_channel_breaks_duty :
    ¬OneChannelDuty (some (.b, .fastPwm)) (put pair [.command 0x5402000000070000#64]) := by
  intro h
  obtain ⟨y, m, h1, h2⟩ := h rfl
  cases h1
  revert h2
  decide

end Sys2Proof.Tests
end

section
/-! Proofs for the scope of the block (spec/00_scope.md R13, R14): what a step does to the sequencer and to T1's compare
registers, stated once, and the obligations on the host's duties, on draining and on reset that follow. -/

namespace Sys2Proof.Machine

open Sys2Proof

/-! ### Steps and runs -/

/-- No state stops the machine (R180). -/
theorem exists_step (s : State) : ∃ t, step s = .next t := by
  unfold step
  cases nextTurn s with
  | done t => exact ⟨t, rfl⟩
  | command i t =>
    rcases exec_cases i t with ⟨_, _, h⟩ | ⟨_, _, _, _, h⟩ | h | h
    all_goals exact ⟨_, h⟩

@[simp] theorem after_zero (s : State) : after 0 s = .next s := rfl

/-- A run of any machine goes on from its first step. -/
theorem run_succ_of_step {M : Host.Core} {s t : M.State} (k : Nat) (h : M.step s = .next t) :
    M.run (k + 1) s = M.run k t := by
  simp only [Host.Core.run, h]

/-- A run of the block goes on from its first step. -/
theorem after_succ_of_step {s t : State} (k : Nat) (h : step s = .next t) : after (k + 1) s = after k t :=
  run_succ_of_step (M := core) k h

/-- With nothing scheduled the step is the sequencer's own. -/
theorem step_of_schedule_nil {s : State} (h : s.schedule = []) : step s = .next (sequencerAlone s) := by
  simp only [step, nextTurn, h]

/-! ### Which move a step makes -/

/-- A command is no reset. -/
theorem resetNext_of_currentCommand {i : Instr} {s : State} (h : currentCommand s = some i) : resetNext s = false := by
  cases hr : resetNext s with
  | false => rfl
  | true => simp [currentCommand_of_resetNext hr] at h

/-- An event is no reset. -/
theorem resetNext_of_eventNext {e : Event} {s : State} (h : eventNext s = some e) : resetNext s = false := by
  unfold eventNext at h
  split at h
  case h_1 hs => simp [resetNext, hs]
  case h_2 => cases h

/-- A word at the head of the schedule makes the step the command it decodes to. -/
theorem currentCommand_of_schedule {s : State} {w : CommandWord} {i : Instr} {rest : List Move}
    (hs : s.schedule = .command w :: rest) (hw : decode w = .ok i) : currentCommand s = some i := by
  simp [currentCommand, hs, hw, Except.toOption]

/-! ### What leaves the sequencer alone -/

@[simp] theorem setClockSelect_seq (x : TimerId) (v : BitVec 3) (b : Block) : (setClockSelect x v b).seq = b.seq := by
  cases x <;> rfl
@[simp] theorem setLife_seq (x : TimerId) (v : BitVec 2) (b : Block) : (setLife x v b).seq = b.seq := by
  cases x <;> rfl
@[simp] theorem stepLife_seq (x : TimerId) (v w : BitVec 2) (b : Block) : (stepLife x v w b).seq = b.seq := by
  unfold stepLife; split <;> simp
@[simp] theorem clearOwned_seq (x : TimerId) (b : Block) : (clearOwned x b).seq = b.seq := by cases x <;> rfl
@[simp] theorem initUnit_seq (u : CompareUnit) (mode : TimerMode) (clk : ClockPrescale) (com : CompareOutputMode)
    (ival cval : Half) (b : Block) : (initUnit u mode clk com ival cval b).seq = b.seq := by cases u <;> rfl
@[simp] theorem updateCompare_seq (u : CompareUnit) (cval : Half) (b : Block) :
    (updateCompare u cval b).seq = b.seq := by cases u <;> rfl
@[simp] theorem clearFlag_seq (c : Cause) (b : Block) : (clearFlag c b).seq = b.seq := writeFlag_seq c false b

/-- No event touches the sequencer (R186). -/
@[simp] theorem eventEffect_seq (e : Event) (b : Block) : (eventEffect e b).seq = b.seq := by
  cases e with
  | count x v => cases x <;> rfl
  | wrap x => cases x <;> rfl
  | ovf x => exact writeFlag_seq _ _ _
  | cmp u => exact writeFlag_seq _ _ _
  | ext l => exact writeFlag_seq _ _ _

/-- The return makes the sequencer idle (R153). -/
@[simp] theorem returnFromDispatch_seq (b : Block) : (returnFromDispatch b).seq = Seq.idle := by
  unfold returnFromDispatch; split <;> rfl

/-- A CBRET that is performed ends an outstanding handler by the return (R153). -/
theorem CommandEffect.of_cbret {b b' : Block} (h : CommandEffect .cbret b b') :
    b.seq.busy = true ∧ b' = returnFromDispatch b := by
  cases h with
  | cbret hb => exact ⟨hb, rfl⟩

/-- CBRET is the only command that touches the sequencer (R156). -/
theorem CommandEffect.seq_eq {i : Instr} {b b' : Block} (h : CommandEffect i b b') (hi : i ≠ .cbret) :
    b'.seq = b.seq := by
  cases h with
  | cbret => exact absurd rfl hi
  | setcb | xinit | xdeinit => rfl
  | tinit | tstart | tstop | tdeinit | tcmp => simp

/-! ### What a step does to the sequencer -/

/-- What a step from `s` that ends in `t` did to the sequencer and to the callback port. -/
inductive SeqEffect (s t : State) : Prop where
  /-- The sequencer keeps its record; a CBRET that does this found it idle. -/
  | kept (hr : resetNext s = false) (hc : currentCommand s = some .cbret → s.block.seq.busy = false)
      (hq : t.block.seq = s.block.seq) (hp : t.ports.call = none)
  /-- An entry called a handler. -/
  | entered (c : Cause) (hs : EntryNext c s) (hb : s.block.seq.busy = false) (hq : t.block.seq.busy = true)
      (hp : t.ports.call.isSome)
  /-- A CBRET ended the outstanding handler. -/
  | returned (hc : currentCommand s = some .cbret) (hb : s.block.seq.busy = true) (hq : t.block.seq = Seq.idle)
  /-- A reset. -/
  | reset (hr : resetNext s = true) (hq : t.block.seq = Seq.idle)

/-- A move that is no command leaves the sequencer alone if it leaves its record alone. -/
theorem SeqEffect.kept_of_no_command {s t : State} (hr : resetNext s = false) (hn : currentCommand s = none)
    (hq : t.block.seq = s.block.seq) (hp : t.ports.call = none) : SeqEffect s t :=
  .kept hr (by simp [hn]) hq hp

/-- Everything one step can do to the sequencer. -/
theorem step_seqEffect {s t : State} (h : step s = .next t) : SeqEffect s t := by
  cases step_cases h with
  | same hr hc hb hp =>
    refine .kept hr (fun hi => ?_) (by rw [hb]) hp
    exact Bool.eq_false_iff.mpr fun hbusy => hc _ _ hi (.cbret hbusy)
  | command i hi hb hp =>
    by_cases hcb : i = .cbret
    · subst hcb
      obtain ⟨hbusy, hret⟩ := hb.of_cbret
      exact .returned hi hbusy (by simp [hret])
    · exact .kept (resetNext_of_currentCommand hi) (fun h' => absurd (Option.some.inj (hi.symm.trans h')) hcb)
        (hb.seq_eq hcb) hp
  | event e he _ hb hp =>
    exact .kept_of_no_command (resetNext_of_eventNext he) (currentCommand_of_eventNext he) (by simp [hb]) hp
  | emptyEntry c hs _ _ hb hp =>
    exact .kept_of_no_command (resetNext_of_entryNext hs) (currentCommand_of_entryNext hs) (by simp [hb]) hp
  | call c hs he _ hb hp =>
    exact .entered c hs ((entryEnabled_iff c s.block).mp he).1 (by rw [hb]) (by rw [hp]; rfl)
  | reset hr hb _ => exact .reset hr (by rw [hb]; rfl)

/-- After a CBRET the sequencer is idle, whether it ended a handler or found none (R153, R154). -/
theorem idle_after_cbret {s t : State} (hc : currentCommand s = some .cbret) (h : step s = .next t) :
    t.block.seq.busy = false := by
  cases step_seqEffect h with
  | kept _ hidle hq _ => rw [hq]; exact hidle hc
  | entered c hs => simp [currentCommand_of_entryNext hs] at hc
  | returned _ _ hq => rw [hq]; rfl
  | reset _ hq => rw [hq]; rfl

/-! ### The host's record of its calls -/

section CallRecords

variable {s t : State} {g : CallRecord} {sender : Nat}

/-- A reset abandons what was owed (R222). -/
theorem callsAfter_of_reset (hr : resetNext s = true) : callsAfter sender s t g = { g with owing := [] } := by
  simp [callsAfter, hr]

/-- A CBRET pays one debt of its sender. -/
theorem callsAfter_of_cbret (hc : currentCommand s = some .cbret) :
    callsAfter sender s t g = { g with owing := g.owing.erase sender } := by
  simp [callsAfter, resetNext_of_currentCommand hc, hc]

/-- An entry that drives the callback port is a new call. -/
theorem callsAfter_of_call {c : Cause} (hs : EntryNext c s) (hp : t.ports.call.isSome) :
    callsAfter sender s t g = { called := g.called + 1, owing := g.called :: g.owing } := by
  simp [callsAfter, resetNext_of_entryNext hs, currentCommand_of_entryNext hs, hp]

/-- Any other step leaves the record. -/
theorem callsAfter_of_other (hr : resetNext s = false) (hc : currentCommand s ≠ some .cbret)
    (hp : t.ports.call = none) : callsAfter sender s t g = g := by
  simp [callsAfter, hr, hc, hp]

/-- A sender that keeps its duty is the one outstanding handler. -/
theorem CallsMatch.busy_and_owing_of_return (hm : CallsMatch g s.block) (hd : ReturnDuty g sender s)
    (hc : currentCommand s = some .cbret) : s.block.seq.busy = true ∧ g.owing = [sender] := by
  obtain ⟨hbusy, hidle⟩ := hm
  have hmem : sender ∈ g.owing := hd hc
  cases hb : s.block.seq.busy with
  | false => simp [hidle hb] at hmem
  | true =>
    obtain ⟨n, _, ho⟩ := hbusy hb
    rw [ho, List.mem_singleton] at hmem
    exact ⟨rfl, by rw [ho, hmem]⟩

/-- With the sequencer idle the record and the block agree when nothing is owed. -/
theorem callsMatch_of_idle {b : Block} (hb : b.seq.busy = false) (ho : g.owing = []) : CallsMatch g b :=
  ⟨fun h => by simp [hb] at h, fun _ => ho⟩

/-- The record and the sequencer agree again after every step that keeps the duty. -/
theorem callsMatch_step (hm : CallsMatch g s.block) (hd : ReturnDuty g sender s) (h : step s = .next t) :
    CallsMatch (callsAfter sender s t g) t.block := by
  cases step_seqEffect h with
  | kept hr hc hq hp =>
    have hno : currentCommand s ≠ some .cbret := fun hcb => by
      simpa [hc hcb] using (hm.busy_and_owing_of_return hd hcb).1
    rw [callsAfter_of_other hr hno hp]
    unfold CallsMatch
    rw [hq]
    exact hm
  | entered c hs hb hq hp =>
    rw [callsAfter_of_call hs hp, hm.2 hb]
    exact ⟨fun _ => ⟨g.called, rfl, rfl⟩, fun hi => by simp [hq] at hi⟩
  | returned hc hb hq =>
    rw [callsAfter_of_cbret hc, (hm.busy_and_owing_of_return hd hc).2]
    exact callsMatch_of_idle (by rw [hq]; rfl) (by simp)
  | reset hr hq =>
    rw [callsAfter_of_reset hr]
    exact callsMatch_of_idle (by rw [hq]; rfl) rfl

end CallRecords

/-- Settles O48, from what a step can do to the sequencer. -/
theorem eachReturnEndsItsOwnHandler : Obligations.EachReturnEndsItsOwnHandler := by
  intro g sender s t hm hd h
  refine ⟨callsMatch_step hm hd h, fun hc => (hm.busy_and_owing_of_return hd hc).1, fun hc => ?_⟩
  have ho : g.owing = [sender] := (hm.busy_and_owing_of_return hd hc).2
  exact ⟨ho, by simp [callsAfter_of_cbret hc, ho], idle_after_cbret hc h⟩

/-! ### Bounded return -/

/-- The sequencer is idle right after the first CBRET that a schedule is known to hold, whatever precedes it. -/
theorem idle_after_scheduled_cbret {w : CommandWord} {post : List Move} (hw : decode w = .ok .cbret) :
    ∀ (pre : List Move) (s : State), s.schedule = pre ++ .command w :: post →
      ∃ t, after (pre.length + 1) s = .next t ∧ t.block.seq.busy = false := by
  intro pre
  induction pre with
  | nil =>
    intro s hs
    obtain ⟨t, ht⟩ := exists_step s
    exact ⟨t, after_succ_of_step 0 ht, idle_after_cbret (currentCommand_of_schedule hs hw) ht⟩
  | cons m pre ih =>
    intro s hs
    obtain ⟨u, hu⟩ := exists_step s
    obtain ⟨t, ht, hidle⟩ := ih u (by rw [step_schedule hu, hs]; rfl)
    exact ⟨t, (after_succ_of_step _ hu).trans ht, hidle⟩

/-- Settles O47: the run up to and including the promised CBRET ends idle. -/
theorem endedHandlerFreesTheSequencer : Obligations.EndedHandlerFreesTheSequencer := by
  rintro n s - ⟨pre, w, post, hs, hn, hw⟩
  obtain ⟨t, ht, hidle⟩ := idle_after_scheduled_cbret hw pre s hs
  exact ⟨pre.length + 1, t, hn, ht, hidle⟩

/-! ### Draining -/

/-- Clearing a flag takes its cause out of the requesting set and no other. -/
theorem requestingCauses_clearFlag (c : Cause) (b : Block) :
    requestingCauses (clearFlag c b) = (requestingCauses b).filter (· ≠ c) := by
  simp [requestingCauses, List.filter_filter, requesting_clearFlag, Bool.and_comm]

/-- An entry that finds an empty slot leaves fewer causes requesting. -/
theorem length_requestingCauses_clearFlag_lt {c : Cause} {b : Block} (h : c ∈ requestingCauses b) :
    (requestingCauses (clearFlag c b)).length < (requestingCauses b).length := by
  rw [requestingCauses_clearFlag, List.length_filter_lt_length_iff_exists]
  exact ⟨c, h, by simp⟩

/-- There are ten causes. -/
theorem length_requestingCauses_le (b : Block) : (requestingCauses b).length ≤ 10 :=
  List.length_filter_le _ allCauses

/-- A handler is outstanding, or at most `n` causes are requesting. -/
def BusyOrAtMost (n : Nat) (b : Block) : Prop := b.seq.busy = true ∨ (requestingCauses b).length ≤ n

/-- With no cause requesting, the block is busy or quiescent (R14). -/
theorem BusyOrAtMost.quiescent {b : Block} (h : BusyOrAtMost 0 b) : b.seq.busy = true ∨ Quiescent b := by
  rcases h with hb | hn
  · exact .inl hb
  · cases hb : b.seq.busy with
    | true => exact .inl rfl
    | false => exact .inr ⟨hb, List.length_eq_zero_iff.mp (Nat.le_zero.mp hn)⟩

/-- Each step of the sequencer on its own calls a handler or serves one cause. -/
theorem BusyOrAtMost.sequencerAlone {n : Nat} {s : State} (h : BusyOrAtMost (n + 1) s.block) :
    BusyOrAtMost n (sequencerAlone s).block := by
  rcases sequencerAlone_cases s with ⟨hb | hr, he⟩ | ⟨c, hb, hc, he⟩
  · exact .inl (by rw [he]; exact hb)
  · exact .inr (by rw [he, quiet_block, hr]; exact Nat.zero_le n)
  · have hn : (requestingCauses s.block).length ≤ n + 1 := h.resolve_left (by simp [hb])
    rw [he]
    rcases enterDispatch_cases c { s with arbDraws := s.arbDraws + 1 } with ⟨_, h1⟩ | ⟨_, h1⟩ <;> rw [h1]
    · exact .inr (Nat.lt_succ_iff.mp ((length_requestingCauses_clearFlag_lt hc).trans_le hn))
    · exact .inl rfl

/-- With nothing scheduled, `n` steps serve `n` causes. -/
theorem drained_after (n : Nat) : ∀ s : State, s.schedule = [] → BusyOrAtMost n s.block →
    ∃ t, after n s = .next t ∧ (t.block.seq.busy = true ∨ Quiescent t.block) := by
  induction n with
  | zero => exact fun s _ h => ⟨s, rfl, h.quiescent⟩
  | succ n ih =>
    intro s hs h
    have hstep : step s = .next (sequencerAlone s) := step_of_schedule_nil hs
    obtain ⟨t, ht, hq⟩ := ih _ (by rw [step_schedule hstep, hs]; rfl) h.sequencerAlone
    exact ⟨t, (after_succ_of_step n hstep).trans ht, hq⟩

/-- Settles O49, by induction on the number of causes requesting, of which there are at most ten. -/
theorem sequencerDrainsInTenSteps : Obligations.SequencerDrainsInTenSteps :=
  fun s hs => drained_after 10 s hs (.inr (length_requestingCauses_le s.block))

/-! ### The compare registers of T1 -/

/-- The two buffers of T1 and their latches, which is all that `T1Match` looks at (R31, R32). -/
structure T1Compares where
  ocra  : Half
  ocrb  : Half
  ocrla : Half
  ocrlb : Half

/-- The compare registers of T1 in a block. -/
def t1Compares (b : Block) : T1Compares := ⟨b.t1.ocra, b.t1.ocrb, b.t1.ocrla, b.t1.ocrlb⟩

/-- Blocks with the same compare registers of T1 match the same records. -/
theorem t1Match_congr {r : T1Record} {b b' : Block} (h : t1Compares b' = t1Compares b) :
    T1Match r b' ↔ T1Match r b := by
  simp only [t1Compares, T1Compares.mk.injEq] at h
  obtain ⟨ha, hb, hla, hlb⟩ := h
  rcases r with _ | ⟨_ | _, m⟩ <;> simp [T1Match, Paired, ha, hb, hla, hlb]

@[simp] theorem t1Compares_setClockSelect (x : TimerId) (v : BitVec 3) (b : Block) :
    t1Compares (setClockSelect x v b) = t1Compares b := by cases x <;> rfl
@[simp] theorem t1Compares_setLife (x : TimerId) (v : BitVec 2) (b : Block) :
    t1Compares (setLife x v b) = t1Compares b := by cases x <;> rfl
@[simp] theorem t1Compares_stepLife (x : TimerId) (v w : BitVec 2) (b : Block) :
    t1Compares (stepLife x v w b) = t1Compares b := by unfold stepLife; split <;> simp
@[simp] theorem t1Compares_writeFlag (c : Cause) (v : Bool) (b : Block) :
    t1Compares (writeFlag c v b) = t1Compares b := by cases c <;> rfl
@[simp] theorem t1Compares_returnFromDispatch (b : Block) : t1Compares (returnFromDispatch b) = t1Compares b := by
  unfold returnFromDispatch
  split
  · exact t1Compares_writeFlag _ false b
  · rfl

/-- Another timer's TDEINIT leaves the compare registers of T1. -/
theorem t1Compares_clearOwned {x : TimerId} (b : Block) (h : x ≠ .t1) :
    t1Compares (clearOwned x b) = t1Compares b := by
  cases x with
  | t1 => exact absurd rfl h
  | t0 | t2 => rfl

/-! ### Writes to the compare registers of T1 -/

/-- TINIT brings the compare registers of T1 to what its channel and mode ask for, whatever they held (R123, R129). -/
theorem t1Match_initUnit (y : Channel) (mode : TimerMode) (clk : ClockPrescale) (com : CompareOutputMode)
    (ival cval : Half) (b : Block) : T1Match (some (y, mode)) (initUnit (.t1 y) mode clk com ival cval b) := by
  cases y with
  | a => exact ⟨rfl, rfl⟩
  | b =>
    intro hp
    simp [Paired, initUnit, initTimer16, initCompare16, hp, pairedPeriod_eq]

/-- TCMP of the channel in force keeps the match: on A it leaves B's registers, on B it writes the pair (R142). -/
theorem t1Match_updateCompare {y : Channel} {m : TimerMode} {b : Block} (cval : Half) (h : T1Match (some (y, m)) b) :
    T1Match (some (y, m)) (updateCompare (.t1 y) cval b) := by
  cases y with
  | a => exact h
  | b => exact fun hp => ⟨pairedPeriod_eq cval, (h hp).2⟩

/-- A wrap keeps the match: it moves buffers to latches, all at once (R32). -/
theorem t1Match_loadLatches {r : T1Record} {b : Block} (x : TimerId) (h : T1Match r b) :
    T1Match r (loadLatches x b) := by
  cases x with
  | t0 | t2 => exact (t1Match_congr rfl).mpr h
  | t1 =>
    rcases r with _ | ⟨_ | _, m⟩
    · trivial
    · exact ⟨h.1, h.1⟩
    · exact fun hp => ⟨(h hp).1, (h hp).1⟩

/-- Every event keeps the match. -/
theorem t1Match_eventEffect {r : T1Record} {b : Block} (e : Event) (h : T1Match r b) :
    T1Match r (eventEffect e b) := by
  cases e with
  | wrap x => exact t1Match_loadLatches x h
  | count x v => cases x <;> exact (t1Match_congr rfl).mpr h
  | ovf | cmp | ext => exact (t1Match_congr (t1Compares_writeFlag _ true b)).mpr h

/-! ### The host's record of T1 -/

section T1Records

variable {s t : State} {r : T1Record}

/-- A reset clears the record. -/
theorem t1After_of_reset (hr : resetNext s = true) : t1After s r = none := by simp [t1After, hr]

/-- A move that is neither a command nor a reset leaves the record. -/
theorem t1After_of_no_command (hr : resetNext s = false) (hc : currentCommand s = none) : t1After s r = r := by
  simp [t1After, hr, hc]

/-- A step that neither configures T1 nor resets leaves the record. -/
theorem t1After_of_not_configures (hr : resetNext s = false) (hc : configuresNext .t1 s = false) :
    t1After s r = r := by
  cases hi : currentCommand s with
  | none => exact t1After_of_no_command hr hi
  | some i =>
    cases i with
    | tinit tid | tdeinit tid =>
      have hx : timerOf tid ≠ some .t1 := by simpa [configuresNext, hi] using hc
      simp [t1After, hr, hi, hx]
    | tstart | tstop | tcmp | setcb | xinit | xdeinit | cbret | rdreg => simp [t1After, hr, hi]

/-- A command that is not performed leaves the record: a TINIT of T1 sets it only if it is accepted (R121). -/
theorem t1After_of_no_effect (hr : resetNext s = false)
    (hc : ∀ i b, currentCommand s = some i → ¬CommandEffect i s.block b) : t1After s r = r := by
  cases hi : currentCommand s with
  | none => exact t1After_of_no_command hr hi
  | some i =>
    cases i with
    | tinit tid mode clk com ch ival cval =>
      simp only [t1After, hr, hi, Bool.false_eq_true, if_false]
      split
      case h_1 k y hx hk ho => exact absurd (.tinit .t1 k (some y) (.t1 y) hx hk ho rfl) (hc _ _ hi)
      case h_2 => rfl
    | tdeinit tid =>
      have hx : timerOf tid ≠ some .t1 := fun hx => hc _ _ hi (.tdeinit .t1 hx)
      simp [t1After, hr, hi, hx]
    | tstart | tstop | tcmp | setcb | xinit | xdeinit | cbret | rdreg => simp [t1After, hr, hi]

/-- An accepted TINIT of T1 sets the record. -/
theorem t1After_of_tinit {tid mode com ch : BitVec 2} {clk : BitVec 3} {ival cval : Half} {k : ClockPrescale}
    {y : Channel} (hi : currentCommand s = some (.tinit tid mode clk com ch ival cval)) (hx : timerOf tid = some .t1)
    (hk : clockOf clk = some k) (ho : channelOf ch = some (some y)) : t1After s r = some (y, modeOf mode) := by
  simp [t1After, resetNext_of_currentCommand hi, hi, hx, hk, ho]

/-- A TDEINIT of T1 clears the record. -/
theorem t1After_of_tdeinit {tid : BitVec 2} (hi : currentCommand s = some (.tdeinit tid))
    (hx : timerOf tid = some .t1) : t1After s r = none := by
  simp [t1After, resetNext_of_currentCommand hi, hi, hx]

/-- The duty of a TCMP of T1: it passes the channel in force. -/
theorem OneChannelDuty.of_tcmp {tid ch : BitVec 2} {cval : Half} (hd : OneChannelDuty r s)
    (hi : currentCommand s = some (.tcmp tid ch cval)) (hx : timerOf tid = some .t1) :
    ∃ y m, r = some (y, m) ∧ channelOf ch = some (some y) := by
  simp only [OneChannelDuty, hi] at hd
  exact hd hx

/-! ### The record and the compare registers of T1, step by step -/

/-- A step that neither configures T1 nor resets and leaves its compare registers keeps the match. -/
theorem t1Match_of_kept {b : Block} (hm : T1Match r s.block) (hr : resetNext s = false)
    (hc : configuresNext .t1 s = false) (hk : t1Compares b = t1Compares s.block) : T1Match (t1After s r) b := by
  rw [t1After_of_not_configures hr hc]
  exact (t1Match_congr hk).mpr hm

/-- A pairing that TINIT accepts names the timer it configures (R121). -/
theorem unitOf_eq_some {x : TimerId} {o : Option Channel} {u : CompareUnit} (h : unitOf x o = some u) :
    x = unitTimer u ∧ ∀ y, u = .t1 y → o = some y := by
  cases x <;> cases o <;> cases h <;> simp [unitTimer]

/-- Every command that is performed keeps the match, if a TCMP of T1 passes the channel in force. -/
theorem t1Match_command {i : Instr} {b : Block} (hm : T1Match r s.block) (hd : OneChannelDuty r s)
    (hi : currentCommand s = some i) (hb : CommandEffect i s.block b) : T1Match (t1After s r) b := by
  have hr : resetNext s = false := resetNext_of_currentCommand hi
  cases hb with
  | tinit x k o u hx hk ho hu =>
    obtain ⟨rfl, hch⟩ := unitOf_eq_some hu
    cases u with
    | t1 y =>
      rw [t1After_of_tinit hi hx hk (hch y rfl ▸ ho)]
      exact t1Match_initUnit ..
    | t0 | t2 => exact t1Match_of_kept hm hr (by simp [configuresNext, hi, hx, unitTimer]) rfl
  | tdeinit x hx =>
    by_cases h1 : x = .t1
    · subst h1
      rw [t1After_of_tdeinit hi hx]
      trivial
    · exact t1Match_of_kept hm hr (by simp [configuresNext, hi, hx, h1]) (by simp [t1Compares_clearOwned _ h1])
  | tcmp u hx hc =>
    have hcfg : configuresNext .t1 s = false := by simp [configuresNext, hi]
    cases u with
    | t1 y =>
      obtain ⟨y', m, rfl, ho⟩ := hd.of_tcmp hi hx
      obtain rfl : y = y' := by simpa [ho] using (hc y rfl).symm
      rw [t1After_of_not_configures hr hcfg]
      exact t1Match_updateCompare _ hm
    | t0 | t2 => exact t1Match_of_kept hm hr hcfg rfl
  | tstart | tstop | cbret => exact t1Match_of_kept hm hr (by simp [configuresNext, hi]) (by simp)
  | setcb | xinit | xdeinit => exact t1Match_of_kept hm hr (by simp [configuresNext, hi]) rfl

/-- The record and the compare registers of T1 agree again after every step that keeps the duty. -/
theorem t1Match_step (hm : T1Match r s.block) (hd : OneChannelDuty r s) (h : step s = .next t) :
    T1Match (t1After s r) t.block := by
  cases step_cases h with
  | same hr hc hb _ =>
    rw [t1After_of_no_effect hr hc, hb]
    exact hm
  | command i hi hb _ => exact t1Match_command hm hd hi hb
  | event e he _ hb _ =>
    rw [t1After_of_no_command (resetNext_of_eventNext he) (currentCommand_of_eventNext he), hb]
    exact t1Match_eventEffect e hm
  | emptyEntry c hs _ _ hb _ =>
    rw [t1After_of_no_command (resetNext_of_entryNext hs) (currentCommand_of_entryNext hs), hb]
    exact (t1Match_congr (t1Compares_writeFlag c false s.block)).mpr hm
  | call c hs _ _ hb _ =>
    rw [t1After_of_no_command (resetNext_of_entryNext hs) (currentCommand_of_entryNext hs), hb]
    exact (t1Match_congr rfl).mpr hm
  | reset hr _ _ =>
    rw [t1After_of_reset hr]
    trivial

end T1Records

/-- Settles O57, from what a step can do and what each write leaves in the compare registers of T1. -/
theorem t1ChannelKept : Obligations.T1ChannelKept := fun _ _ _ => t1Match_step

/-! ### Reset -/

/-- The reset block meets R50 (a) to (h), each checked on its values. -/
theorem standing_reset : Standing Block.reset := by
  refine ⟨?foc, ?reserved, ?clocks, ?lines, ?enables, ?compares, ?lives, ?seq⟩
  case seq => exact ⟨fun _ => ⟨rfl, rfl, rfl⟩, fun hb => nomatch hb⟩
  all_goals decide

/-- Every owned register is 0 at reset (R48). -/
theorem ownedZero_reset (x : TimerId) : OwnedZero x Block.reset := by
  cases x <;> decide

/-- Settles O53, by evaluating the reset block. -/
theorem resetMeetsTheInvariants : Obligations.ResetMeetsTheInvariants := by
  have huninit : UninitIsZero Block.reset :=
    ⟨fun _ => ownedZero_reset .t0, fun _ => ownedZero_reset .t1, fun _ => ownedZero_reset .t2⟩
  have hdormant : Dormant Block.reset := by decide
  have hquiescent : Quiescent Block.reset := by decide
  exact ⟨standing_reset, huninit, hdormant, hquiescent⟩

end Sys2Proof.Machine
end

section
/-! Proofs for the registers of the block (spec/10_state.md): what a step does to one timer, to the external lines and to
one flag, each stated once, and the obligations on the registers that follow. -/

namespace Sys2Proof.Machine

open Sys2Proof

/-! ### The block seen in parts -/

/-- Blocks that agree in a view agree in everything that the view keeps. -/
theorem eq_of_view_eq {α : Sort*} {g : Block → Block} {f : Block → α} (hf : ∀ b, f (g b) = f b) {b b' : Block}
    (h : g b' = g b) : f b' = f b := by
  rw [← hf b', h, hf b]

/-- The view of one timer: its registers but the flags, everything else at reset. -/
def timerView (x : TimerId) (b : Block) : Block :=
  match x with
  | .t0 => { Block.reset with t0 := { b.t0 with iflg := 0 } }
  | .t1 => { Block.reset with t1 := { b.t1 with iflg := 0 } }
  | .t2 => { Block.reset with t2 := { b.t2 with iflg := 0 } }

/-- The view of all but one timer: the registers of that timer, but its flags, at reset. -/
def hideTimer (x : TimerId) (b : Block) : Block :=
  match x with
  | .t0 => { b with t0 := { Timer8.reset with iflg := b.t0.iflg } }
  | .t1 => { b with t1 := { Timer16.reset with iflg := b.t1.iflg } }
  | .t2 => { b with t2 := { Timer8.reset with iflg := b.t2.iflg } }

/-- The view of the external lines: their registers but the flags, everything else at reset. -/
def linesView (b : Block) : Block := { Block.reset with ext := { b.ext with eiflg := 0 } }

section Views

variable (x : TimerId) (b : Block)

@[simp] theorem lifeOf_timerView : lifeOf x (timerView x b) = lifeOf x b := by cases x <;> rfl
@[simp] theorem counterOf_timerView : counterOf x (timerView x b) = counterOf x b := by cases x <;> rfl
@[simp] theorem latchOf_timerView (u : CompareUnit) : latchOf u (timerView (unitTimer u) b) = latchOf u b := by
  rcases u with _ | (_ | _) | _ <;> rfl
@[simp] theorem ownedZero_timerView : OwnedZero x (timerView x b) = OwnedZero x b := by cases x <;> rfl
@[simp] theorem t1Compares_timerView : t1Compares (timerView .t1 b) = t1Compares b := rfl

/-- The enables of a timer are in its view (R184). -/
theorem enableOf_timerView {x : TimerId} {c : Cause} (h : causeSource c = timerSource x) (b : Block) :
    enableOf c (timerView x b) = enableOf c b := by
  cases x <;> cases c <;> cases h <;> rfl

@[simp] theorem hideTimer_cb : (hideTimer x b).cb = b.cb := by cases x <;> rfl
@[simp] theorem flagOf_hideTimer (c : Cause) : flagOf c (hideTimer x b) = flagOf c b := by
  cases x <;> cases c <;> rfl
@[simp] theorem linesView_hideTimer : linesView (hideTimer x b) = linesView b := by cases x <;> rfl

/-- Hiding one timer leaves the view of every other. -/
theorem timerView_hideTimer {x y : TimerId} (h : y ≠ x) (b : Block) : timerView y (hideTimer x b) = timerView y b := by
  cases x <;> cases y <;> simp at h <;> rfl

@[simp] theorem timerView_writeFlag (c : Cause) (v : Bool) : timerView x (writeFlag c v b) = timerView x b := by
  cases x <;> cases c <;> rfl
@[simp] theorem linesView_writeFlag (c : Cause) (v : Bool) : linesView (writeFlag c v b) = linesView b := by
  cases c <;> rfl
@[simp] theorem timerView_seq (q : Seq) : timerView x { b with seq := q } = timerView x b := by cases x <;> rfl
@[simp] theorem timerView_cb (cb : Slots) : timerView x { b with cb := cb } = timerView x b := by cases x <;> rfl
@[simp] theorem timerView_ext (e : ExtLines) : timerView x { b with ext := e } = timerView x b := by cases x <;> rfl

/-! ### A timer operation touches its timer alone -/

@[simp] theorem hideTimer_setClockSelect (v : BitVec 3) : hideTimer x (setClockSelect x v b) = hideTimer x b := by
  cases x <;> rfl
@[simp] theorem hideTimer_setLife (v : BitVec 2) : hideTimer x (setLife x v b) = hideTimer x b := by cases x <;> rfl
@[simp] theorem hideTimer_stepLife (v w : BitVec 2) : hideTimer x (stepLife x v w b) = hideTimer x b := by
  unfold stepLife; split <;> simp
@[simp] theorem hideTimer_clearOwned : hideTimer x (clearOwned x b) = hideTimer x b := by cases x <;> rfl
@[simp] theorem hideTimer_setCounter (v : Half) : hideTimer x (setCounter x v b) = hideTimer x b := by cases x <;> rfl
@[simp] theorem hideTimer_loadLatches : hideTimer x (loadLatches x b) = hideTimer x b := by cases x <;> rfl
@[simp] theorem hideTimer_updateCompare (u : CompareUnit) (cval : Half) :
    hideTimer (unitTimer u) (updateCompare u cval b) = hideTimer (unitTimer u) b := by
  rcases u with _ | (_ | _) | _ <;> rfl

/-- The compare write of TINIT on channel B: its own pair always, channel A's in a pairing mode (R123). -/
theorem initCompare16_b (mode : TimerMode) (cval : Half) (z : Timer16) :
    initCompare16 mode .b cval z =
      { z with
        ocra := if pairsOnInit mode then pairedPeriod cval else z.ocra
        ocrla := if pairsOnInit mode then pairedPeriod cval else z.ocrla
        ocrb := cval
        ocrlb := cval } := by
  unfold initCompare16
  dsimp only
  split <;> rfl

@[simp] theorem hideTimer_initUnit (u : CompareUnit) (mode : TimerMode) (clk : ClockPrescale) (com : CompareOutputMode)
    (ival cval : Half) :
    hideTimer (unitTimer u) (initUnit u mode clk com ival cval b) = hideTimer (unitTimer u) b := by
  cases u with
  | t0 | t2 => rfl
  | t1 ch =>
    cases ch with
    | a => rfl
    | b => simp [hideTimer, unitTimer, initUnit, initTimer16, initCompare16_b]

end Views

/-- The return writes one flag and the sequencer's record, so no timer and no line register (R197). -/
@[simp] theorem timerView_returnFromDispatch (x : TimerId) (b : Block) :
    timerView x (returnFromDispatch b) = timerView x b := by
  unfold returnFromDispatch
  split
  · exact (timerView_seq x _ _).trans (timerView_writeFlag x b _ false)
  · exact timerView_seq x b _
@[simp] theorem linesView_returnFromDispatch (b : Block) : linesView (returnFromDispatch b) = linesView b := by
  unfold returnFromDispatch
  split
  · exact linesView_writeFlag b _ false
  · rfl
@[simp] theorem returnFromDispatch_cb (b : Block) : (returnFromDispatch b).cb = b.cb := by
  unfold returnFromDispatch
  split
  · exact writeFlag_cb _ false b
  · rfl

/-- The timer a command names, if it is a timer command. -/
def commandTimer : Instr → Option TimerId
  | .tinit tid _ _ _ _ _ _ => timerOf tid
  | .tstart tid _ => timerOf tid
  | .tstop tid => timerOf tid
  | .tdeinit tid => timerOf tid
  | .tcmp tid _ _ => timerOf tid
  | .setcb _ _ => none
  | .xinit _ _ => none
  | .xdeinit _ => none
  | .cbret => none
  | .rdreg _ => none

/-- How far the effect of a performed command `i` reaches: one timer, one slot, one line, or the return. -/
inductive CommandReach (i : Instr) (b b' : Block) : Prop where
  | timer (x : TimerId) (hi : commandTimer i = some x) (hk : hideTimer x b' = hideTimer x b)
  | slot (src : BitVec 3) (hnd : Half) (x : Source) (hi : i = .setcb src hnd) (hx : sourceOf src = some x)
      (hb : b' = { b with cb := setSlot x hnd b.cb })
  | lineInit (line edge : BitVec 2) (l : Line) (hi : i = .xinit line edge) (hl : lineOf line = some l)
      (hb : b' = { b with ext := initLine (Config.pullup (lineIndex l)) l (edgeOf edge) b.ext })
  | lineDeinit (line : BitVec 2) (l : Line) (hi : i = .xdeinit line) (hl : lineOf line = some l)
      (hb : b' = { b with ext := deinitLine l b.ext })
  | handlerReturn (hi : i = .cbret) (hbusy : b.seq.busy = true) (hb : b' = returnFromDispatch b)

/-- A performed command reaches no further: a timer command writes its timer alone, and no flag (R120, R156). -/
theorem CommandEffect.reach {i : Instr} {b b' : Block} (h : CommandEffect i b b') : CommandReach i b b' := by
  cases h with
  | tinit y k o u hy _ _ hu =>
    obtain ⟨rfl, _⟩ := unitOf_eq_some hu
    exact .timer _ hy (by simp)
  | tstart y k hy => exact .timer y hy (by simp)
  | tstop y hy => exact .timer y hy (by simp)
  | tdeinit y hy => exact .timer y hy (by simp)
  | tcmp u hy => exact .timer (unitTimer u) hy (by simp)
  | setcb x hx => exact .slot _ _ x rfl hx rfl
  | xinit l hl => exact .lineInit _ _ l rfl hl rfl
  | xdeinit l hl => exact .lineDeinit _ l rfl hl rfl
  | cbret hb => exact .handlerReturn rfl hb rfl

/-! ### What a step does to one timer -/

/-- What a step from `s` that leaves the block `b` did to the registers of timer `x` other than its flags. -/
inductive TimerEffect (x : TimerId) (s : State) (b : Block) : Prop where
  /-- The step is no business of the timer. -/
  | kept (hk : timerView x b = timerView x s.block)
  | tinit (tid mode com ch : BitVec 2) (clk : BitVec 3) (ival cval : Half) (k : ClockPrescale) (u : CompareUnit)
      (hi : currentCommand s = some (.tinit tid mode clk com ch ival cval)) (hx : timerOf tid = some x)
      (hu : x = unitTimer u) (hc : ∀ y, u = .t1 y → channelOf ch = some (some y))
      (hb : b = initUnit u (modeOf mode) k (outputModeOf com) ival cval s.block)
  | tstart (tid : BitVec 2) (clk : BitVec 3) (k : ClockPrescale) (hi : currentCommand s = some (.tstart tid clk))
      (hx : timerOf tid = some x)
      (hb : b = stepLife x lifeStopped lifeConfigured (setClockSelect x (clockCode k) s.block))
  | tstop (tid : BitVec 2) (hi : currentCommand s = some (.tstop tid)) (hx : timerOf tid = some x)
      (hb : b = stepLife x lifeConfigured lifeStopped (setClockSelect x 0 s.block))
  | tdeinit (tid : BitVec 2) (hi : currentCommand s = some (.tdeinit tid)) (hx : timerOf tid = some x)
      (hb : b = setLife x lifeUninit (clearOwned x s.block))
  | tcmp (tid ch : BitVec 2) (cval : Half) (u : CompareUnit) (hi : currentCommand s = some (.tcmp tid ch cval))
      (hx : timerOf tid = some x) (hu : x = unitTimer u) (hc : ∀ y, u = .t1 y → channelOf ch = some (some y))
      (hb : b = updateCompare u cval s.block)
  | count (v : Half) (he : eventNext s = some (.count x v)) (hen : clockSelect x s.block ≠ 0#3)
      (hb : b = setCounter x v s.block)
  | wrap (he : eventNext s = some (.wrap x)) (hen : clockSelect x s.block ≠ 0#3) (hb : b = loadLatches x s.block)
  | reset (hr : resetNext s = true) (hb : b = Block.reset)

/-- Writing nothing but another timer is no business of this one. -/
theorem TimerEffect.of_hideTimer_eq {x y : TimerId} {s : State} {b : Block} (hne : x ≠ y)
    (h : hideTimer y b = hideTimer y s.block) : TimerEffect x s b :=
  .kept (eq_of_view_eq (timerView_hideTimer hne) h)

/-- What a performed command does to one timer. -/
theorem CommandEffect.timerEffect {i : Instr} {s : State} {b : Block} (x : TimerId)
    (hi : currentCommand s = some i) (hb : CommandEffect i s.block b) : TimerEffect x s b := by
  by_cases hx : commandTimer i = some x
  case pos =>
    cases hb with
    | tinit y k o u hy _ ho hu =>
      obtain rfl : y = x := Option.some.inj (hy.symm.trans hx)
      obtain ⟨hyu, hch⟩ := unitOf_eq_some hu
      exact .tinit _ _ _ _ _ _ _ k u hi hx hyu (fun z hz => by rw [ho, hch z hz]) rfl
    | tstart y k hy =>
      obtain rfl : y = x := Option.some.inj (hy.symm.trans hx)
      exact .tstart _ _ k hi hx rfl
    | tstop y hy =>
      obtain rfl : y = x := Option.some.inj (hy.symm.trans hx)
      exact .tstop _ hi hx rfl
    | tdeinit y hy =>
      obtain rfl : y = x := Option.some.inj (hy.symm.trans hx)
      exact .tdeinit _ hi hx rfl
    | tcmp u hy hc => exact .tcmp _ _ _ u hi hx (Option.some.inj (hx.symm.trans hy)) hc rfl
    | setcb | xinit | xdeinit | cbret => cases hx
  case neg =>
    cases hb.reach with
    | timer y hy hk => exact .of_hideTimer_eq (fun hxy => hx (hxy ▸ hy)) hk
    | slot _ _ _ _ _ hb => exact .kept (by rw [hb, timerView_cb])
    | lineInit _ _ _ _ _ hb | lineDeinit _ _ _ _ hb => exact .kept (by rw [hb, timerView_ext])
    | handlerReturn _ _ hb => exact .kept (by rw [hb, timerView_returnFromDispatch])

/-- Everything one step can do to one timer. -/
theorem step_timerEffect (x : TimerId) {s t : State} (h : step s = .next t) : TimerEffect x s t.block := by
  cases step_cases h with
  | same _ _ hb _ => exact .kept (by rw [hb])
  | command i hi hb _ => exact hb.timerEffect x hi
  | event e he hen hb _ =>
    rw [hb]
    cases e with
    | count y v =>
      by_cases hxy : x = y
      · subst hxy
        exact .count v he (by simpa [eventEnabled] using hen) rfl
      · exact .of_hideTimer_eq hxy (hideTimer_setCounter y s.block v)
    | wrap y =>
      by_cases hxy : x = y
      · subst hxy
        exact .wrap he (by simpa [eventEnabled] using hen) rfl
      · exact .of_hideTimer_eq hxy (hideTimer_loadLatches y s.block)
    | ovf | cmp | ext => exact .kept (timerView_writeFlag ..)
  | emptyEntry c _ _ _ hb _ => exact .kept (by rw [hb]; exact timerView_writeFlag ..)
  | call c _ _ _ hb _ => exact .kept (by rw [hb]; exact timerView_seq ..)
  | reset hr hb _ => exact .reset hr hb

/-! ### What a step does to the external lines -/

/-- What a step from `s` that leaves the block `b` did to the registers of the external lines other than the flags. -/
inductive LinesEffect (s : State) (b : Block) : Prop where
  /-- The step is no business of the lines. -/
  | kept (hk : linesView b = linesView s.block)
  | xinit (line edge : BitVec 2) (l : Line) (hi : currentCommand s = some (.xinit line edge)) (hl : lineOf line = some l)
      (hb : b.ext = initLine (Config.pullup (lineIndex l)) l (edgeOf edge) s.block.ext)
  | xdeinit (line : BitVec 2) (l : Line) (hi : currentCommand s = some (.xdeinit line)) (hl : lineOf line = some l)
      (hb : b.ext = deinitLine l s.block.ext)
  | reset (hr : resetNext s = true) (hb : b = Block.reset)

/-- Everything one step can do to the external lines. -/
theorem step_linesEffect {s t : State} (h : step s = .next t) : LinesEffect s t.block := by
  cases step_cases h with
  | same _ _ hb _ => exact .kept (by rw [hb])
  | command i hi hb _ =>
    cases hb.reach with
    | timer x _ hk => exact .kept (eq_of_view_eq (linesView_hideTimer x) hk)
    | slot _ _ _ _ _ hb => exact .kept (by rw [hb]; rfl)
    | lineInit line edge l hij hl hb => exact .xinit line edge l (hij ▸ hi) hl (by rw [hb])
    | lineDeinit line l hij hl hb => exact .xdeinit line l (hij ▸ hi) hl (by rw [hb])
    | handlerReturn _ _ hb => exact .kept (by rw [hb, linesView_returnFromDispatch])
  | event e _ _ hb _ =>
    rw [hb]
    cases e with
    | count x v => exact .kept (eq_of_view_eq (linesView_hideTimer x) (hideTimer_setCounter x _ v))
    | wrap x => exact .kept (eq_of_view_eq (linesView_hideTimer x) (hideTimer_loadLatches x _))
    | ovf | cmp | ext => exact .kept (linesView_writeFlag ..)
  | emptyEntry c _ _ _ hb _ => exact .kept (by rw [hb]; exact linesView_writeFlag ..)
  | call c _ _ _ hb _ => exact .kept (by rw [hb]; rfl)
  | reset hr hb _ => exact .reset hr hb

/-! ### What a step does to one flag -/

/-- The cause whose flag an event sets, if it sets one (R186). -/
def eventCause : Event → Option Cause
  | .count _ _ => none
  | .wrap _ => none
  | .ovf x => some (ovfCause x)
  | .cmp u => some (cmpCause u)
  | .ext l => some (extCause l)

/-- Setting a flag raises that flag and no other. -/
theorem flagOf_setFlag (c d : Cause) (b : Block) : flagOf c (setFlag d b) = (decide (d = c) || flagOf c b) := by
  by_cases h : d = c
  · subst h; simp [setFlag]
  · simp [setFlag, flagOf_writeFlag_other true b (Ne.symm h), h]

/-- An event raises the flag of its cause and no other. -/
theorem flagOf_eventEffect (c : Cause) (e : Event) (b : Block) :
    flagOf c (eventEffect e b) = (decide (eventCause e = some c) || flagOf c b) := by
  cases e with
  | count x v =>
    simpa [eventCause, eventEffect] using eq_of_view_eq (flagOf_hideTimer x · c) (hideTimer_setCounter x b v)
  | wrap x =>
    simpa [eventCause, eventEffect] using eq_of_view_eq (flagOf_hideTimer x · c) (hideTimer_loadLatches x b)
  | ovf | cmp | ext => simp [eventCause, eventEffect, flagOf_setFlag]

@[simp] theorem flagOf_seq (c : Cause) (b : Block) (q : Seq) : flagOf c { b with seq := q } = flagOf c b := by
  cases c <;> rfl
@[simp] theorem initLine_eiflg (p : Bool) (l : Line) (m : EdgeMode) (e : ExtLines) :
    (initLine p l m e).eiflg = e.eiflg := by cases l <;> rfl
@[simp] theorem deinitLine_eiflg (l : Line) (e : ExtLines) : (deinitLine l e).eiflg = e.eiflg := by cases l <;> rfl

/-- The flags are those of the timers and of the lines. -/
theorem flagOf_ext {b : Block} {e : ExtLines} (c : Cause) (h : e.eiflg = b.ext.eiflg) :
    flagOf c { b with ext := e } = flagOf c b := by
  cases c <;> simp [flagOf, h]

/-- The return clears the flag of the cause that `SEQ` names and no other (R196, R197). -/
theorem flagOf_returnFromDispatch (c : Cause) (b : Block) :
    flagOf c (returnFromDispatch b) = (flagOf c b && decide (causeOf b.seq.src b.seq.cause ≠ some c)) := by
  unfold returnFromDispatch
  split
  case h_1 d hd =>
    rw [flagOf_seq, clearFlag, hd]
    by_cases hcd : d = c
    · subst hcd; simp
    · simp [flagOf_writeFlag_other false b (Ne.symm hcd), hcd]
  case h_2 hd => simp [hd]

/-- CBRET is the only command that touches a flag (R156). -/
theorem CommandEffect.flagOf_eq {i : Instr} {b b' : Block} (h : CommandEffect i b b') (hi : i ≠ .cbret) (c : Cause) :
    flagOf c b' = flagOf c b := by
  cases h.reach with
  | timer x _ hk => exact eq_of_view_eq (flagOf_hideTimer x · c) hk
  | slot _ _ _ _ _ hb => rw [hb]; cases c <;> rfl
  | lineInit _ _ _ _ _ hb => rw [hb]; exact flagOf_ext c (initLine_eiflg ..)
  | lineDeinit _ _ _ _ hb => rw [hb]; exact flagOf_ext c (deinitLine_eiflg ..)
  | handlerReturn hcb => exact absurd hcb hi

/-- What a step from `s` that leaves the block `b` did to the flag of `c`. -/
inductive FlagEffect (c : Cause) (s : State) (b : Block) : Prop where
  | kept (hk : flagOf c b = flagOf c s.block)
  /-- The cause's own event set it. -/
  | raised (e : Event) (he : eventNext s = some e) (hen : eventEnabled e s.block = true) (hc : eventCause e = some c)
      (hf : flagOf c b = true)
  /-- The CBRET of the cause's handler cleared it. -/
  | returned (hi : currentCommand s = some .cbret) (hb : s.block.seq.busy = true)
      (hc : causeOf s.block.seq.src s.block.seq.cause = some c) (hf : flagOf c b = false)
  /-- An entry for the cause that found its slot empty cleared it. -/
  | emptyEntry (hs : EntryNext c s) (he : entryEnabled c s.block = true)
      (h0 : slotOf (causeSource c) s.block.cb = 0) (hf : flagOf c b = false)
  | reset (hr : resetNext s = true) (hf : flagOf c b = false)

/-- Everything one step can do to one flag. -/
theorem step_flagEffect (c : Cause) {s t : State} (h : step s = .next t) : FlagEffect c s t.block := by
  cases step_cases h with
  | same _ _ hb _ => exact .kept (by rw [hb])
  | command i hi hb _ =>
    by_cases hcb : i = .cbret
    · subst hcb
      obtain ⟨hbusy, hret⟩ := hb.of_cbret
      rw [hret]
      by_cases hc : causeOf s.block.seq.src s.block.seq.cause = some c
      · exact .returned hi hbusy hc (by simp [flagOf_returnFromDispatch, hc])
      · exact .kept (by simp [flagOf_returnFromDispatch, hc])
    · exact .kept (hb.flagOf_eq hcb c)
  | event e he hen hb _ =>
    rw [hb]
    by_cases hc : eventCause e = some c
    · exact .raised e he hen hc (by simp [flagOf_eventEffect, hc])
    · exact .kept (by simp [flagOf_eventEffect, hc])
  | emptyEntry d hs hen h0 hb _ =>
    rw [hb]
    by_cases hcd : c = d
    · subst hcd
      exact .emptyEntry hs hen h0 (flagOf_writeFlag_same c false s.block)
    · exact .kept (flagOf_writeFlag_other false s.block hcd)
  | call d _ _ _ hb _ => exact .kept (by rw [hb]; exact flagOf_seq ..)
  | reset hr hb _ => exact .reset hr (by rw [hb]; cases c <;> rfl)

/-- Settles O37, from what a step can do to one flag. -/
theorem flagsFallOnlyByDispatch : Obligations.FlagsFallOnlyByDispatch := by
  intro c s t h hset hclear
  cases step_flagEffect c h with
  | kept hk => simp [hk, hset] at hclear
  | raised e _ _ _ hf => simp [hf] at hclear
  | returned hi hb hc => exact .inr (.inl ⟨hi, hb, hc⟩)
  | emptyEntry hs he h0 =>
    obtain ⟨hidle, hreq⟩ := (entryEnabled_iff c s.block).mp he
    exact .inr (.inr ⟨hs, hidle, hreq, h0⟩)
  | reset hr => exact .inl hr

/-- Settles O38, from what a step can do to one flag. -/
theorem flagsRiseOnlyByEvents : Obligations.FlagsRiseOnlyByEvents := by
  intro c s t h hclear hset
  cases step_flagEffect c h with
  | kept hk => simp [hk, hclear] at hset
  | raised e he hen hc =>
    cases e with
    | ovf x => exact .inl ⟨x, he, Option.some.inj hc, by simpa [eventEnabled] using hen⟩
    | cmp u => exact .inr (.inl ⟨u, he, Option.some.inj hc, by simpa [eventEnabled] using hen⟩)
    | ext l => exact .inr (.inr ⟨l, he, Option.some.inj hc⟩)
    | count | wrap => cases hc
  | returned _ _ _ hf | emptyEntry _ _ _ hf | reset _ hf => simp [hf] at hset

/-! ### What each write leaves in the registers of its timer -/

section Writes

variable (x : TimerId) (u : CompareUnit) (b : Block)

/-- The lifecycle step is one write of the lifecycle. -/
theorem stepLife_eq_setLife (v w : BitVec 2) :
    stepLife x v w b = setLife x (if lifeOf x b = v then w else lifeOf x b) b := by
  unfold stepLife
  split
  · rfl
  · cases x <;> rfl

@[simp] theorem lifeOf_stepLife (v w : BitVec 2) :
    lifeOf x (stepLife x v w b) = if lifeOf x b = v then w else lifeOf x b := by
  rw [stepLife_eq_setLife, lifeOf_setLife_same]

/-- The lifecycle step changes the lifecycle only along its one arrow (R36). -/
theorem lifeOf_stepLife_of_ne {x : TimerId} {v w : BitVec 2} {b : Block}
    (h : lifeOf x (stepLife x v w b) ≠ lifeOf x b) : lifeOf x b = v ∧ lifeOf x (stepLife x v w b) = w := by
  rw [lifeOf_stepLife] at h ⊢
  by_cases hv : lifeOf x b = v <;> simp_all

@[simp] theorem lifeOf_initUnit (mode : TimerMode) (clk : ClockPrescale) (com : CompareOutputMode) (ival cval : Half) :
    lifeOf (unitTimer u) (initUnit u mode clk com ival cval b) = lifeConfigured := by
  cases u <;> rfl
@[simp] theorem lifeOf_updateCompare (cval : Half) : lifeOf x (updateCompare u cval b) = lifeOf x b := by
  rcases u with _ | (_ | _) | _ <;> cases x <;> rfl
@[simp] theorem lifeOf_setCounter (v : Half) : lifeOf x (setCounter x v b) = lifeOf x b := by cases x <;> rfl
@[simp] theorem lifeOf_loadLatches : lifeOf x (loadLatches x b) = lifeOf x b := by cases x <;> rfl

@[simp] theorem clockSelect_updateCompare (cval : Half) : clockSelect x (updateCompare u cval b) = clockSelect x b := by
  rcases u with _ | (_ | _) | _ <;> cases x <;> rfl

@[simp] theorem counterOf_setClockSelect (v : BitVec 3) : counterOf x (setClockSelect x v b) = counterOf x b := by
  cases x <;> rfl
@[simp] theorem counterOf_stepLife (v w : BitVec 2) : counterOf x (stepLife x v w b) = counterOf x b := by
  rw [stepLife_eq_setLife]; cases x <;> rfl
@[simp] theorem counterOf_updateCompare (cval : Half) : counterOf x (updateCompare u cval b) = counterOf x b := by
  rcases u with _ | (_ | _) | _ <;> cases x <;> rfl
@[simp] theorem counterOf_loadLatches : counterOf x (loadLatches x b) = counterOf x b := by cases x <;> rfl

@[simp] theorem latchOf_setClockSelect (v : BitVec 3) : latchOf u (setClockSelect x v b) = latchOf u b := by
  rcases u with _ | (_ | _) | _ <;> cases x <;> rfl
@[simp] theorem latchOf_stepLife (v w : BitVec 2) : latchOf u (stepLife x v w b) = latchOf u b := by
  rw [stepLife_eq_setLife]; rcases u with _ | (_ | _) | _ <;> cases x <;> rfl
@[simp] theorem latchOf_updateCompare (u' : CompareUnit) (cval : Half) :
    latchOf u (updateCompare u' cval b) = latchOf u b := by
  rcases u with _ | (_ | _) | _ <;> rcases u' with _ | (_ | _) | _ <;> rfl
@[simp] theorem latchOf_setCounter (v : Half) : latchOf u (setCounter x v b) = latchOf u b := by
  rcases u with _ | (_ | _) | _ <;> cases x <;> rfl
/-- A wrap loads every latch of its timer (R32). -/
@[simp] theorem latchOf_loadLatches : latchOf u (loadLatches (unitTimer u) b) = bufferOf u b := by
  rcases u with _ | (_ | _) | _ <;> rfl
@[simp] theorem bufferOf_loadLatches : bufferOf u (loadLatches x b) = bufferOf u b := by
  rcases u with _ | (_ | _) | _ <;> cases x <;> rfl

@[simp] theorem enableOf_setClockSelect (c : Cause) (v : BitVec 3) :
    enableOf c (setClockSelect x v b) = enableOf c b := by cases x <;> cases c <;> rfl
@[simp] theorem enableOf_stepLife (c : Cause) (v w : BitVec 2) : enableOf c (stepLife x v w b) = enableOf c b := by
  rw [stepLife_eq_setLife]; cases x <;> cases c <;> rfl
@[simp] theorem enableOf_updateCompare (c : Cause) (cval : Half) :
    enableOf c (updateCompare u cval b) = enableOf c b := by
  rcases u with _ | (_ | _) | _ <;> cases c <;> rfl
@[simp] theorem enableOf_setCounter (c : Cause) (v : Half) : enableOf c (setCounter x v b) = enableOf c b := by
  cases x <;> cases c <;> rfl
@[simp] theorem enableOf_loadLatches (c : Cause) : enableOf c (loadLatches x b) = enableOf c b := by
  cases x <;> cases c <;> rfl

/-- TDEINIT brings the registers of the timer to their reset values (R128, R48). -/
@[simp] theorem timerView_deinit : timerView x (setLife x lifeUninit (clearOwned x b)) = Block.reset := by
  cases x <;> rfl
@[simp] theorem timerView_reset : timerView x Block.reset = Block.reset := by cases x <;> rfl
@[simp] theorem enableOf_reset (c : Cause) : enableOf c Block.reset = false := by cases c <;> rfl

end Writes

/-! ### Counters, latches and lifecycles -/

/-- A TINIT of the timer configures it. -/
theorem configuresNext_of_tinit {x : TimerId} {s : State} {tid mode com ch : BitVec 2} {clk : BitVec 3}
    {ival cval : Half} (hi : currentCommand s = some (.tinit tid mode clk com ch ival cval))
    (hx : timerOf tid = some x) : configuresNext x s = true := by simp [configuresNext, hi, hx]

/-- A TDEINIT of the timer configures it. -/
theorem configuresNext_of_tdeinit {x : TimerId} {s : State} {tid : BitVec 2}
    (hi : currentCommand s = some (.tdeinit tid)) (hx : timerOf tid = some x) : configuresNext x s = true := by
  simp [configuresNext, hi, hx]

/-- Settles O41, from what a step can do to one timer. -/
theorem countersWrittenOnlyAsListed : Obligations.CountersWrittenOnlyAsListed := by
  intro x s t h hne
  cases step_timerEffect x h with
  | kept hk => exact absurd (eq_of_view_eq (counterOf_timerView x) hk) hne
  | tinit _ _ _ _ _ _ _ _ _ hi hx => exact .inr (.inl (configuresNext_of_tinit hi hx))
  | tdeinit _ hi hx => exact .inr (.inl (configuresNext_of_tdeinit hi hx))
  | tstart _ _ _ _ _ hb | tstop _ _ _ hb | tcmp _ _ _ _ _ _ _ _ hb | wrap _ _ hb => simp [hb] at hne
  | count v he hen => exact .inr (.inr ⟨hen, v, he⟩)
  | reset hr => exact .inl hr

/-- Settles O42, from what a step can do to one timer. -/
theorem latchesWrittenOnlyAsListed : Obligations.LatchesWrittenOnlyAsListed := by
  intro u s t h hne
  cases step_timerEffect (unitTimer u) h with
  | kept hk => exact absurd (eq_of_view_eq (latchOf_timerView · u) hk) hne
  | tinit _ _ _ _ _ _ _ _ _ hi hx => exact .inr (.inl (configuresNext_of_tinit hi hx))
  | tdeinit _ hi hx => exact .inr (.inl (configuresNext_of_tdeinit hi hx))
  | tstart _ _ _ _ _ hb | tstop _ _ _ hb | tcmp _ _ _ _ _ _ _ _ hb | count _ _ _ hb => simp [hb] at hne
  | wrap he hen hb => exact .inr (.inr ⟨he, hen, by rw [hb, latchOf_loadLatches]⟩)
  | reset hr => exact .inl hr

/-- Settles O43, from what a step can do to one timer. -/
theorem lifecycleFollowsTheStateMachine : Obligations.LifecycleFollowsTheStateMachine := by
  intro x s t h hne
  cases step_timerEffect x h with
  | kept hk => exact absurd (eq_of_view_eq (lifeOf_timerView x) hk) hne
  | tinit _ _ _ _ _ _ _ _ u hi hx hu _ hb =>
    refine .inr (.inl ⟨_, _, _, _, _, _, _, hi, hx, ?_⟩)
    rw [hb, hu, lifeOf_initUnit]; rfl
  | tdeinit _ hi hx hb => exact .inr (.inr (.inl ⟨_, hi, hx, by rw [hb, lifeOf_setLife_same]; rfl⟩))
  | tstop _ hi hx hb =>
    rw [hb, ← lifeOf_setClockSelect x x 0 s.block] at hne
    obtain ⟨hold, hnew⟩ := lifeOf_stepLife_of_ne hne
    rw [lifeOf_setClockSelect] at hold
    exact .inr (.inr (.inr (.inl ⟨_, hi, hx, hold, by rw [hb]; exact hnew⟩)))
  | tstart _ _ k hi hx hb =>
    rw [hb, ← lifeOf_setClockSelect x x (clockCode k) s.block] at hne
    obtain ⟨hold, hnew⟩ := lifeOf_stepLife_of_ne hne
    rw [lifeOf_setClockSelect] at hold
    exact .inr (.inr (.inr (.inr ⟨_, _, hi, hx, hold, by rw [hb]; exact hnew⟩)))
  | tcmp _ _ _ _ _ _ _ _ hb | count _ _ _ hb | wrap _ _ hb => simp [hb] at hne
  | reset hr => exact .inl hr

/-! ### Enables -/

/-- Every cause is one of a timer or one of a line (R184). -/
theorem causeSource_timer_or_line (c : Cause) : (∃ x, causeSource c = timerSource x) ∨ ∃ l, c = extCause l := by
  cases c with
  | ovf0 | cmp0 => exact .inl ⟨.t0, rfl⟩
  | ovf1 | cmpa1 | cmpb1 => exact .inl ⟨.t1, rfl⟩
  | ovf2 | cmp2 => exact .inl ⟨.t2, rfl⟩
  | ext0 => exact .inr ⟨.line0, rfl⟩
  | ext1 => exact .inr ⟨.line1, rfl⟩
  | ext2 => exact .inr ⟨.line2, rfl⟩

/-- The enable of a line is its bit of `EIEN` (R38, R184). -/
theorem enableOf_extCause (l : Line) (b : Block) : enableOf (extCause l) b = getBit (lineIndex l) b.ext.eien := by
  cases l <;> rfl

/-- A bit after a bit write. -/
theorem getBit_putBit {m : Nat} {i j : Nat} (v : Bool) (r : BitVec m) (h : i < m) :
    getBit j (putBit i v r) = if j = i then v else getBit j r := by
  split
  case isTrue hji => subst hji; exact getBit_putBit_same _ v r h
  case isFalse hji => exact getBit_putBit_other v r hji

/-- The enable bits after an XINIT: the line's own is set (R160). -/
theorem eien_initLine (p : Bool) (l : Line) (m : EdgeMode) (e : ExtLines) (k : Line) :
    getBit (lineIndex k) (initLine p l m e).eien = if k = l then true else getBit (lineIndex k) e.eien := by
  cases l <;> cases k <;> simp [initLine, clearLine, setEdgeSelect, lineIndex, getBit_putBit]

/-- The enable bits after an XDEINIT: the line's own is clear (R163). -/
theorem eien_deinitLine (l : Line) (e : ExtLines) (k : Line) :
    getBit (lineIndex k) (deinitLine l e).eien = if k = l then false else getBit (lineIndex k) e.eien := by
  cases l <;> cases k <;> simp [deinitLine, clearLine, setEdgeSelect, lineIndex, getBit_putBit]

/-- The pull-up bits after an XINIT: the line's own is set if the line has a pull-up (R161). -/
theorem epup_initLine (p : Bool) (l : Line) (m : EdgeMode) (e : ExtLines) (k : Line) :
    getBit (lineIndex k) (initLine p l m e).epup = (decide (k = l) && p || getBit (lineIndex k) e.epup) := by
  cases p <;> cases l <;> cases k <;> simp [initLine, clearLine, setEdgeSelect, lineIndex, getBit_putBit]

@[simp] theorem deinitLine_epup (l : Line) (e : ExtLines) : (deinitLine l e).epup = e.epup := by cases l <;> rfl

@[simp] theorem enableOf_linesView (l : Line) (b : Block) :
    enableOf (extCause l) (linesView b) = enableOf (extCause l) b := by cases l <;> rfl

/-- An enable of a timer rises only by a TINIT of the timer and falls only by that, a TDEINIT of it or a reset. -/
theorem timer_enable_changes {c : Cause} {x : TimerId} (hc : causeSource c = timerSource x) {s t : State}
    (h : step s = .next t) :
    enableOf c t.block = enableOf c s.block ∨
    (∃ tid m k o ch iv cv, currentCommand s = some (.tinit tid m k o ch iv cv) ∧ timerOf tid = some x) ∨
    (enableOf c t.block = false ∧
      (resetNext s = true ∨ ∃ tid, currentCommand s = some (.tdeinit tid) ∧ timerOf tid = some x)) := by
  cases step_timerEffect x h with
  | kept hk => exact .inl (eq_of_view_eq (enableOf_timerView hc) hk)
  | tinit _ _ _ _ _ _ _ _ _ hi hx => exact .inr (.inl ⟨_, _, _, _, _, _, _, hi, hx⟩)
  | tdeinit tid hi hx hb =>
    have hoff : enableOf c t.block = false := by
      rw [hb, ← enableOf_timerView hc, timerView_deinit, enableOf_reset]
    exact .inr (.inr ⟨hoff, .inr ⟨tid, hi, hx⟩⟩)
  | tstart _ _ _ _ _ hb | tstop _ _ _ hb | tcmp _ _ _ _ _ _ _ _ hb | count _ _ _ hb | wrap _ _ hb =>
    exact .inl (by simp [hb])
  | reset hr hb => exact .inr (.inr ⟨by rw [hb, enableOf_reset], .inl hr⟩)

/-- An enable of a line rises only by an XINIT of the line and falls only by an XDEINIT of it or a reset. -/
theorem line_enable_changes (l : Line) {s t : State} (h : step s = .next t) :
    enableOf (extCause l) t.block = enableOf (extCause l) s.block ∨
    (enableOf (extCause l) t.block = true ∧
      ∃ line e, currentCommand s = some (.xinit line e) ∧ lineOf line = some l) ∨
    (enableOf (extCause l) t.block = false ∧
      (resetNext s = true ∨ ∃ line, currentCommand s = some (.xdeinit line) ∧ lineOf line = some l)) := by
  cases step_linesEffect h with
  | kept hk => exact .inl (eq_of_view_eq (enableOf_linesView l) hk)
  | xinit line edge k hi hk hb =>
    simp only [enableOf_extCause, hb, eien_initLine]
    by_cases hlk : l = k
    · subst hlk; exact .inr (.inl ⟨by simp, line, edge, hi, hk⟩)
    · exact .inl (if_neg hlk)
  | xdeinit line k hi hk hb =>
    simp only [enableOf_extCause, hb, eien_deinitLine]
    by_cases hlk : l = k
    · subst hlk; exact .inr (.inr ⟨by simp, .inr ⟨line, hi, hk⟩⟩)
    · exact .inl (if_neg hlk)
  | reset hr hb => exact .inr (.inr ⟨by rw [hb, enableOf_reset], .inl hr⟩)

/-- Settles O39, the enables of the timers and those of the lines apart. -/
theorem enablesChangeOnlyByConfiguration : Obligations.EnablesChangeOnlyByConfiguration := by
  intro c s t h
  rcases causeSource_timer_or_line c with ⟨x, hc⟩ | ⟨l, rfl⟩
  · rcases timer_enable_changes hc h with hk | ⟨_, _, _, _, _, _, _, hi, hx⟩ | ⟨hoff, hr | ⟨_, hi, hx⟩⟩
    · exact ⟨fun h0 h1 => by simp [hk, h0] at h1, fun h1 h0 => by simp [hk, h1] at h0⟩
    · exact ⟨fun _ _ => .inl ⟨x, _, _, _, _, _, _, _, hi, hx, hc⟩,
        fun _ _ => .inr (.inl ⟨x, _, _, _, _, _, _, _, hi, hx, hc⟩)⟩
    · exact ⟨fun _ h1 => by simp [hoff] at h1, fun _ _ => .inl hr⟩
    · exact ⟨fun _ h1 => by simp [hoff] at h1, fun _ _ => .inr (.inr (.inl ⟨x, _, hi, hx, hc⟩))⟩
  · rcases line_enable_changes l h with hk | ⟨hon, _, _, hi, hl⟩ | ⟨hoff, hr | ⟨_, hi, hl⟩⟩
    · exact ⟨fun h0 h1 => by simp [hk, h0] at h1, fun h1 h0 => by simp [hk, h1] at h0⟩
    · exact ⟨fun _ _ => .inr ⟨l, _, _, hi, hl, rfl⟩, fun _ h0 => by simp [hon] at h0⟩
    · exact ⟨fun _ h1 => by simp [hoff] at h1, fun _ _ => .inl hr⟩
    · exact ⟨fun _ h1 => by simp [hoff] at h1, fun _ _ => .inr (.inr (.inr ⟨l, _, hi, hl, rfl⟩))⟩

/-! ### Pull-ups -/

/-- Settles O44, from what a step can do to the external lines. -/
theorem pullUpsStayUntilReset : Obligations.PullUpsStayUntilReset := by
  intro l s t h
  cases step_linesEffect h with
  | kept hk =>
    have hep : t.block.ext.epup = s.block.ext.epup := congrArg (·.ext.epup) hk
    rw [hep]
    exact ⟨fun _ h1 => h1, fun h0 h1 => by simp [h0] at h1⟩
  | xinit line edge k hi hk hb =>
    rw [hb, epup_initLine]
    refine ⟨fun _ h1 => by simp [h1], fun h0 h1 => ?_⟩
    obtain ⟨rfl, hp⟩ : l = k ∧ Config.pullup (lineIndex k) = true := by simpa [h0] using h1
    exact ⟨hp, line, edge, hi, hk⟩
  | xdeinit _ _ _ _ hb =>
    rw [hb, deinitLine_epup]
    exact ⟨fun _ h1 => h1, fun h0 h1 => by simp [h0] at h1⟩
  | reset hr hb =>
    have h0 : getBit (lineIndex l) t.block.ext.epup = false := by rw [hb]; cases l <;> rfl
    exact ⟨fun hn => by simp [hr] at hn, fun _ h1 => by simp [h0] at h1⟩

/-! ### Slots -/

/-- SETCB is the only command that writes a slot (R43, R151). -/
theorem CommandEffect.slot_changes {i : Instr} {b b' : Block} (h : CommandEffect i b b') :
    b'.cb = b.cb ∨ ∃ src hnd x, i = .setcb src hnd ∧ sourceOf src = some x ∧ b'.cb = setSlot x hnd b.cb := by
  cases h.reach with
  | timer x _ hk => exact .inl (eq_of_view_eq (f := (·.cb)) (hideTimer_cb x) hk)
  | slot src hnd x hi hx hb => exact .inr ⟨src, hnd, x, hi, hx, by rw [hb]⟩
  | lineInit _ _ _ _ _ hb | lineDeinit _ _ _ _ hb => exact .inl (by rw [hb])
  | handlerReturn _ _ hb => exact .inl (by rw [hb, returnFromDispatch_cb])

/-- No event writes a slot (R186). -/
@[simp] theorem eventEffect_cb (e : Event) (b : Block) : (eventEffect e b).cb = b.cb := by
  cases e with
  | count x v => cases x <;> rfl
  | wrap x => cases x <;> rfl
  | ovf | cmp | ext => exact writeFlag_cb _ true b

/-- Settles O40, from what a step can do and what a command does to the slots. -/
theorem slotsWrittenOnlyBySetcb : Obligations.SlotsWrittenOnlyBySetcb := by
  intro x s t h hne
  cases step_cases h with
  | same _ _ hb _ => simp [hb] at hne
  | command i hi hb _ =>
    rcases hb.slot_changes with hk | ⟨src, hnd, y, rfl, hy, hk⟩
    · simp [hk] at hne
    · rw [hk] at hne ⊢
      by_cases hxy : x = y
      · subst hxy
        exact .inr ⟨src, hnd, hi, hy, slotOf_setSlot_same x hnd _⟩
      · exact absurd (slotOf_setSlot_other hnd _ hxy) hne
  | event e _ _ hb _ => simp [hb] at hne
  | emptyEntry c _ _ _ hb _ => simp [hb, clearFlag] at hne
  | call c _ _ _ hb _ => simp [hb] at hne
  | reset hr => exact .inl hr

/-! ### Fields and bits -/

@[simp] theorem getField_zero (lo k m : Nat) : getField lo k 0#m = 0#k := by simp [getField]
@[simp] theorem getBit_zero (i m : Nat) : getBit i 0#m = false := by simp [getBit]

/-- A field write leaves every bit outside the field alone. -/
theorem getBit_putField_other {m n i lo : Nat} (v : BitVec n) (r : BitVec m) (h : i < lo ∨ lo + n ≤ i) :
    getBit i (putField lo v r) = getBit i r := by
  have h1 : ¬ (lo ≤ i ∧ i < lo + n) := by omega
  simp only [getBit, getLsbD_putField, h1, if_false]
  rcases Nat.lt_or_ge i m with h2 | h2 <;> simp [h2, BitVec.getLsbD_of_ge]

/-! ### Uninit timers -/

/-- R50 (i), timer by timer. -/
theorem uninitIsZero_iff (b : Block) : UninitIsZero b ↔ ∀ x, lifeOf x b = 0#2 → OwnedZero x b := by
  constructor
  · rintro ⟨h0, h1, h2⟩ x
    cases x
    exacts [h0, h1, h2]
  · exact fun h => ⟨h .t0, h .t1, h .t2⟩

/-- A timer whose owned set is 0 has no clock (R24, R26). -/
theorem clockSelect_of_ownedZero {x : TimerId} {b : Block} (h : OwnedZero x b) : clockSelect x b = 0#3 := by
  cases x with
  | t0 | t2 =>
    obtain ⟨hctrl, -⟩ := h
    simp [clockSelect, hctrl]
  | t1 =>
    obtain ⟨-, hctrlb, -⟩ := h
    simp [clockSelect, hctrlb]

/-- A timer at its reset values owns only 0. -/
theorem ownedZero_of_timerView_reset {x : TimerId} {b : Block} (h : timerView x b = Block.reset) : OwnedZero x b := by
  rw [← ownedZero_timerView, h]
  exact ownedZero_reset x

/-- The lifecycle step does not make a timer Uninit. -/
theorem lifeOf_stepLife_ne_uninit {x : TimerId} {v w : BitVec 2} {b : Block} (hw : w ≠ 0#2) (h : lifeOf x b ≠ 0#2) :
    lifeOf x (stepLife x v w b) ≠ 0#2 := by
  rw [lifeOf_stepLife]
  split
  · exact hw
  · exact h

/-- The lifecycle duty of TSTART, TSTOP and TCMP: the timer they name is not Uninit (R230). -/
theorem LifecycleDuty.lifeOf_ne {s : State} {x : TimerId} {tid : BitVec 2} (hd : LifecycleDuty s)
    (hx : timerOf tid = some x)
    (hi : (∃ clk, currentCommand s = some (.tstart tid clk)) ∨ currentCommand s = some (.tstop tid) ∨
      ∃ ch cval, currentCommand s = some (.tcmp tid ch cval)) : lifeOf x s.block ≠ 0#2 := by
  unfold LifecycleDuty at hd
  rcases hi with ⟨_, hi⟩ | hi | ⟨_, _, hi⟩ <;> rw [hi] at hd <;> exact hd x hx

/-- Every step that keeps the lifecycle duty leaves an Uninit timer all-zero. -/
theorem uninit_ownedZero_step {x : TimerId} {s t : State} (hz : lifeOf x s.block = 0#2 → OwnedZero x s.block)
    (hd : LifecycleDuty s) (h : step s = .next t) : lifeOf x t.block = 0#2 → OwnedZero x t.block := by
  intro hlife
  cases step_timerEffect x h with
  | kept hk =>
    rw [eq_of_view_eq (lifeOf_timerView x) hk] at hlife
    rw [eq_of_view_eq (ownedZero_timerView x) hk]
    exact hz hlife
  | tinit _ _ _ _ _ _ _ _ u _ _ hu _ hb => simp [hb, hu, lifeConfigured] at hlife
  | tdeinit _ _ _ hb => exact ownedZero_of_timerView_reset (by rw [hb, timerView_deinit])
  | tstart _ _ k hi hx hb =>
    rw [hb] at hlife
    refine absurd hlife (lifeOf_stepLife_ne_uninit (by decide) ?_)
    simpa using hd.lifeOf_ne hx (.inl ⟨_, hi⟩)
  | tstop _ hi hx hb =>
    rw [hb] at hlife
    refine absurd hlife (lifeOf_stepLife_ne_uninit (by decide) ?_)
    simpa using hd.lifeOf_ne hx (.inr (.inl hi))
  | tcmp _ _ _ u hi hx _ _ hb =>
    rw [hb, lifeOf_updateCompare] at hlife
    exact absurd hlife (hd.lifeOf_ne hx (.inr (.inr ⟨_, _, hi⟩)))
  | count _ _ hen hb =>
    rw [hb, lifeOf_setCounter] at hlife
    exact absurd (clockSelect_of_ownedZero (hz hlife)) hen
  | wrap _ hen hb =>
    rw [hb, lifeOf_loadLatches] at hlife
    exact absurd (clockSelect_of_ownedZero (hz hlife)) hen
  | reset _ hb => exact ownedZero_of_timerView_reset (by rw [hb, timerView_reset])

/-- Settles O55, timer by timer. -/
theorem uninitTimersStayZero : Obligations.UninitTimersStayZero := by
  intro s t hz hd h
  rw [uninitIsZero_iff] at hz ⊢
  exact fun x => uninit_ownedZero_step (hz x) hd h

/-! ### The pair of T1 -/

/-- Being paired is the match of a record on channel B in a pairing mode. -/
theorem t1Match_b_iff_paired {m : TimerMode} (hm : pairsOnInit m = true) (b : Block) :
    T1Match (some (.b, m)) b ↔ Paired b :=
  ⟨fun h => h hm, fun h _ => h⟩

/-- The pairing modes by their codes (R94, R123). -/
theorem pairsOnInit_modeOf (mode : BitVec 2) : pairsOnInit (modeOf mode) = decide (mode = 2#2 ∨ mode = 3#2) := by
  revert mode; decide

/-- The code of T1 (R94). -/
theorem timerOf_eq_t1 {tid : BitVec 2} (h : timerOf tid = some .t1) : tid = 1#2 := by
  revert tid; decide

/-- The code of channel A (R94). -/
theorem channelOf_eq_a {ch : BitVec 2} (h : channelOf ch = some (some .a)) : ch = 1#2 := by
  revert ch; decide

/-- A TINIT of channel B in a pairing mode pairs buffers and latches, whatever they held (R31, R123). -/
theorem paired_initUnit_b {mode : TimerMode} (hm : pairsOnInit mode = true) (clk : ClockPrescale)
    (com : CompareOutputMode) (ival cval : Half) (b : Block) :
    Paired (initUnit (.t1 .b) mode clk com ival cval b) :=
  (t1Match_b_iff_paired hm _).mp (t1Match_initUnit .b mode clk com ival cval b)

/-- The duty leaves T1 its pair: a TINIT of T1 is of channel B in a pairing mode, a TCMP of T1 not of channel A (R231). -/
theorem paired_step {s t : State} (hp : Paired s.block) (hd : ChannelBDuty s) (hr : resetNext s = false)
    (h : step s = .next t) : Paired t.block := by
  have hm : T1Match (some (.b, .fastPwm)) s.block := (t1Match_b_iff_paired rfl s.block).mpr hp
  refine (t1Match_b_iff_paired (m := .fastPwm) rfl t.block).mp ?_
  cases step_timerEffect .t1 h with
  | kept hk => exact (t1Match_congr (eq_of_view_eq t1Compares_timerView hk)).mpr hm
  | tinit _ mode _ _ _ ival cval k u hi hx hu hc hb =>
    simp only [ChannelBDuty, hi] at hd
    obtain ⟨rfl, hmode⟩ := hd (timerOf_eq_t1 hx)
    cases u with
    | t0 | t2 => cases hu
    | t1 y =>
      obtain rfl : Channel.b = y := by simpa [channelOf] using hc y rfl
      rw [hb]
      exact fun _ => paired_initUnit_b (by simpa [pairsOnInit_modeOf] using hmode) ..
  | tdeinit _ hi hx =>
    simp only [ChannelBDuty, hi] at hd
    exact absurd (timerOf_eq_t1 hx) hd
  | tcmp _ _ _ u hi hx hu hc hb =>
    simp only [ChannelBDuty, hi] at hd
    cases u with
    | t0 | t2 => cases hu
    | t1 y =>
      rw [hb]
      cases y with
      | a => exact absurd (channelOf_eq_a (hc .a rfl)) (hd (timerOf_eq_t1 hx))
      | b => exact t1Match_updateCompare _ hm
  | tstart _ _ _ _ _ hb | tstop _ _ _ hb => exact (t1Match_congr (by simp [hb])).mpr hm
  | count v _ _ hb => rw [hb]; exact t1Match_eventEffect (.count .t1 v) hm
  | wrap _ _ hb => rw [hb]; exact t1Match_loadLatches .t1 hm
  | reset hrt => simp [hr] at hrt

/-- Settles O56, from what a step can do to T1. -/
theorem pairingKept : Obligations.PairingKept := fun _ _ => paired_step

/-! ### What the counter hardware sees after TINIT -/

/-- The outputs of T0 and T2 after TINIT: the configuration, force-compare 0, the compare value in the latch (R45, R122). -/
theorem counterOut8_initTimer8 (mode : TimerMode) (clk : ClockPrescale) (com : CompareOutputMode) (ival cval : Half)
    (r : Timer8) : counterOut8 (initTimer8 mode clk com ival cval r) =
      { cs := clockCode clk, wgm := modeCode mode, com := outputModeCode com, foc := false, latch := mask8 cval
        cnt := mask8 ival } := by
  simp [counterOut8, initTimer8, clearOwned8, getField_putField_same, getField_putField_other, getBit_putField_other]

/-- The outputs of T1 after TINIT of channel A (R45, R122, R123). -/
theorem counterOut16_initTimer16_a (mode : TimerMode) (clk : ClockPrescale) (com : CompareOutputMode)
    (ival cval : Half) (r : Timer16) : counterOut16 (initTimer16 .a mode clk com ival cval r) =
      { cs := clockCode clk, wgm := modeCode mode, coma := outputModeCode com, comb := 0, foca := false, focb := false
        latchA := cval, latchB := 0, cnt := ival } := by
  simp [counterOut16, initTimer16, initCompare16, clearOwned16, comOffset, getField_putField_same,
    getField_putField_other, getBit_putField_other]

/-- The outputs of T1 after TINIT of channel B: the other latch is paired in the pairing modes only (R45, R123). -/
theorem counterOut16_initTimer16_b (mode : TimerMode) (clk : ClockPrescale) (com : CompareOutputMode)
    (ival cval : Half) (r : Timer16) : counterOut16 (initTimer16 .b mode clk com ival cval r) =
      { cs := clockCode clk, wgm := modeCode mode, coma := 0, comb := outputModeCode com, foca := false, focb := false
        latchA := if pairsOnInit mode then cval + 1#16 else 0, latchB := cval, cnt := ival } := by
  simp [counterOut16, initTimer16, initCompare16_b, clearOwned16, comOffset, getField_putField_same,
    getField_putField_other, getBit_putField_other, pairedPeriod_eq]

/-- The pad logic of a line reads the edge mode of the XINIT it has just accepted (R37, R188). -/
theorem padMode_initLine {l : Line} {m : EdgeMode} (h : edgeSupported l m = true) (p : Bool) (b : Block) :
    padMode l { b with ext := initLine p l m b.ext } = m := by
  cases l <;> cases m <;> cases h <;> rfl

/-- A clock code other than 6 and 7 names a prescale, whose code it is (R94). -/
theorem exists_clockOf {clk : BitVec 3} (h6 : clk ≠ 6#3) (h7 : clk ≠ 7#3) :
    ∃ k, clockOf clk = some k ∧ clockCode k = clk := by
  obtain ⟨k, hk⟩ := Option.isSome_iff_exists.mp ((clockOf_isSome clk).trans (by simp [validClk, h6, h7]))
  exact ⟨k, hk, clockCode_of clk k hk⟩

/-- Settles O29, from what each configuration leaves at the outputs. -/
theorem initsReachTheOutputs : Obligations.InitsReachTheOutputs := by
  intro mode clk com edge ival cval s h6 h7
  obtain ⟨k, hk, rfl⟩ := exists_clockOf h6 h7
  refine ⟨⟨_, exec_of_effect (.tinit .t0 k none .t0 rfl hk rfl rfl), ?t0⟩,
    ⟨_, exec_of_effect (.tinit .t2 k none .t2 rfl hk rfl rfl), ?t2⟩,
    ⟨_, exec_of_effect (.tinit .t1 k (some .a) (.t1 .a) rfl hk rfl rfl), ?t1a⟩,
    ⟨_, exec_of_effect (.tinit .t1 k (some .b) (.t1 .b) rfl hk rfl rfl), ?t1b⟩,
    ⟨_, exec_of_effect (.xinit .line0 rfl rfl), padMode_initLine rfl _ _⟩,
    ⟨_, exec_of_effect (.xinit .line1 rfl rfl), padMode_initLine rfl _ _⟩,
    fun hedge => ?line2⟩
  case t0 | t2 => simpa [initUnit, mask8] using counterOut8_initTimer8 (modeOf mode) k (outputModeOf com) ival cval _
  case t1a => simpa [initUnit] using counterOut16_initTimer16_a (modeOf mode) k (outputModeOf com) ival cval _
  case t1b =>
    simpa [initUnit, pairsOnInit_modeOf] using counterOut16_initTimer16_b (modeOf mode) k (outputModeOf com) ival cval _
  case line2 =>
    have he : edgeSupported .line2 (edgeOf edge) = true := by rcases hedge with rfl | rfl <;> rfl
    exact ⟨_, exec_of_effect (.xinit .line2 rfl he), padMode_initLine he _ _⟩

/-- Settles O58: TINIT by the match it establishes, TCMP by the pair it writes. -/
theorem channelBWritesEstablishThePair : Obligations.ChannelBWritesEstablishThePair := by
  intro mode clk com ival cval s
  constructor
  case left =>
    intro h6 h7 hmode
    obtain ⟨k, hk, -⟩ := exists_clockOf h6 h7
    have hm : pairsOnInit (modeOf mode) = true := by simpa [pairsOnInit_modeOf] using hmode
    refine ⟨_, exec_of_effect (.tinit .t1 k (some .b) (.t1 .b) rfl hk rfl rfl), paired_initUnit_b hm .., ?_⟩
    simp [initUnit, initTimer16, initCompare16_b]
  case right =>
    refine ⟨_, exec_of_effect (.tcmp (.t1 .b) rfl (by simp [channelOf])), pairedPeriod_eq cval, rfl, fun hv => ?_⟩
    subst hv
    rfl

/-! ### The standing invariants (R50) -/

/-- R50 (a), (c), (e) and (g) of an 8-bit timer; (f) holds of every 8-bit value. -/
def Standing8 (r : Timer8) : Prop :=
  getBit 7 r.ctrl = false ∧ (getField 0 3 r.ctrl).toNat ≤ 5 ∧ r.ien ∈ [0#2, 1#2, 2#2] ∧ r.life.toNat ≤ 2

/-- R50 (a), (b), (c), (e) and (g) of T1. -/
def Standing16 (r : Timer16) : Prop :=
  getBit 3 r.ctrla = false ∧ getBit 2 r.ctrla = false ∧ getField 3 5 r.ctrlb = 0#5 ∧
    (getField 0 3 r.ctrlb).toNat ≤ 5 ∧ r.ien ∈ [0#3, 1#3, 2#3, 4#3] ∧ r.life.toNat ≤ 2

/-- The standing invariants of one timer. -/
def TimerStanding (x : TimerId) (b : Block) : Prop :=
  match x with
  | .t0 => Standing8 b.t0
  | .t1 => Standing16 b.t1
  | .t2 => Standing8 b.t2

/-- The standing invariants, timer by timer, with those of the lines and of the sequencer. -/
theorem standing_iff (b : Block) :
    Standing b ↔ (∀ x, TimerStanding x b) ∧ LinesAreInputs b ∧ SeqLegal b := by
  constructor
  · rintro ⟨⟨f0, f1a, f1b, f2⟩, hr, ⟨c0, c1, c2⟩, hl, ⟨e0, e1, e2⟩, -, ⟨l0, l1, l2⟩, hs⟩
    refine ⟨fun x => ?_, hl, hs⟩
    cases x
    exacts [⟨f0, c0, e0, l0⟩, ⟨f1a, f1b, hr, c1, e1, l1⟩, ⟨f2, c2, e2, l2⟩]
  · rintro ⟨ht, hl, hs⟩
    obtain ⟨f0, c0, e0, l0⟩ := ht .t0
    obtain ⟨f1a, f1b, hr, c1, e1, l1⟩ := ht .t1
    obtain ⟨f2, c2, e2, l2⟩ := ht .t2
    have hrange : ComparesInRange b :=
      ⟨Nat.le_of_lt_succ b.t0.ocr.isLt, Nat.le_of_lt_succ b.t0.ocrl.isLt, Nat.le_of_lt_succ b.t2.ocr.isLt,
        Nat.le_of_lt_succ b.t2.ocrl.isLt⟩
    exact ⟨⟨f0, f1a, f1b, f2⟩, hr, ⟨c0, c1, c2⟩, hl, ⟨e0, e1, e2⟩, hrange, ⟨l0, l1, l2⟩, hs⟩

@[simp] theorem timerStanding_timerView (x : TimerId) (b : Block) :
    TimerStanding x (timerView x b) = TimerStanding x b := by cases x <;> rfl

/-- A timer at its reset values stands. -/
theorem timerStanding_of_timerView_reset {x : TimerId} {b : Block} (h : timerView x b = Block.reset) :
    TimerStanding x b := by
  rw [← timerStanding_timerView, h]
  exact ((standing_iff _).mp standing_reset).1 x

/-- TINIT enables one interrupt of an 8-bit timer (R124). -/
theorem oneEnable8 (mode : TimerMode) : putBit (enableBit8 mode) true 0#2 ∈ [0#2, 1#2, 2#2] := by
  cases mode <;> decide

/-- TINIT enables one interrupt of T1 (R124). -/
theorem oneEnable16 (mode : TimerMode) (ch : Channel) :
    putBit (enableBit16 mode ch) true 0#3 ∈ [0#3, 1#3, 2#3, 4#3] := by
  cases mode <;> cases ch <;> decide

/-- The compare write of TINIT touches no clock and no enable. -/
@[simp] theorem initCompare16_ctrlb (mode : TimerMode) (ch : Channel) (cval : Half) (z : Timer16) :
    (initCompare16 mode ch cval z).ctrlb = z.ctrlb := by
  cases ch with
  | a => rfl
  | b => rw [initCompare16_b]
@[simp] theorem initCompare16_ien (mode : TimerMode) (ch : Channel) (cval : Half) (z : Timer16) :
    (initCompare16 mode ch cval z).ien = z.ien := by
  cases ch with
  | a => rfl
  | b => rw [initCompare16_b]

/-- TINIT leaves an 8-bit timer standing, whatever it held. -/
theorem standing8_initTimer8 (mode : TimerMode) (clk : ClockPrescale) (com : CompareOutputMode) (ival cval : Half)
    (r : Timer8) : Standing8 (initTimer8 mode clk com ival cval r) := by
  have hout := counterOut8_initTimer8 mode clk com ival cval r
  have hclk : getField 0 3 (initTimer8 mode clk com ival cval r).ctrl = clockCode clk := congrArg CounterOut8.cs hout
  exact ⟨congrArg CounterOut8.foc hout, hclk ▸ clockCode_le clk, oneEnable8 mode, by simp [initTimer8, lifeConfigured]⟩

/-- TINIT leaves T1 standing, whatever it held. -/
theorem standing16_initTimer16 (ch : Channel) (mode : TimerMode) (clk : ClockPrescale) (com : CompareOutputMode)
    (ival cval : Half) (r : Timer16) : Standing16 (initTimer16 ch mode clk com ival cval r) := by
  obtain ⟨o, hout, hfoca, hfocb, hcs⟩ : ∃ o, counterOut16 (initTimer16 ch mode clk com ival cval r) = o ∧
      o.foca = false ∧ o.focb = false ∧ o.cs = clockCode clk := by
    cases ch
    exacts [⟨_, counterOut16_initTimer16_a .., rfl, rfl, rfl⟩, ⟨_, counterOut16_initTimer16_b .., rfl, rfl, rfl⟩]
  have hclk : getField 0 3 (initTimer16 ch mode clk com ival cval r).ctrlb = clockCode clk :=
    (congrArg CounterOut16.cs hout).trans hcs
  have hres : getField 3 5 (initTimer16 ch mode clk com ival cval r).ctrlb = 0#5 := by
    simp [initTimer16, clearOwned16, getField_putField_other]
  have hien : (initTimer16 ch mode clk com ival cval r).ien = putBit (enableBit16 mode ch) true 0#3 := by
    simp [initTimer16, clearOwned16]
  exact ⟨(congrArg CounterOut16.foca hout).trans hfoca, (congrArg CounterOut16.focb hout).trans hfocb, hres,
    hclk ▸ clockCode_le clk, hien ▸ oneEnable16 mode ch, by simp [initTimer16, lifeConfigured]⟩

/-- TINIT leaves its timer standing. -/
theorem timerStanding_initUnit (u : CompareUnit) (mode : TimerMode) (clk : ClockPrescale) (com : CompareOutputMode)
    (ival cval : Half) (b : Block) : TimerStanding (unitTimer u) (initUnit u mode clk com ival cval b) := by
  cases u with
  | t0 | t2 => exact standing8_initTimer8 ..
  | t1 ch => exact standing16_initTimer16 ..

/-- A legal clock select leaves the timer standing. -/
theorem timerStanding_setClockSelect {x : TimerId} {v : BitVec 3} {b : Block} (hv : v.toNat ≤ 5)
    (h : TimerStanding x b) : TimerStanding x (setClockSelect x v b) := by
  have hclk : (clockSelect x (setClockSelect x v b)).toNat ≤ 5 := by rwa [clockSelect_setClockSelect_same]
  cases x with
  | t0 | t2 =>
    obtain ⟨hfoc, -, hien, hlife⟩ := h
    exact ⟨(getBit_putField_other _ _ (by decide)).trans hfoc, hclk, hien, hlife⟩
  | t1 =>
    obtain ⟨ha, hb, hres, -, hien, hlife⟩ := h
    exact ⟨ha, hb, (getField_putField_other _ _ _ _ (by decide)).trans hres, hclk, hien, hlife⟩

/-- The lifecycle step leaves the timer standing. -/
theorem timerStanding_stepLife {x : TimerId} {v w : BitVec 2} {b : Block} (hw : w.toNat ≤ 2)
    (h : TimerStanding x b) : TimerStanding x (stepLife x v w b) := by
  unfold stepLife
  split
  case isFalse => exact h
  case isTrue =>
    cases x with
    | t0 | t2 =>
      obtain ⟨hfoc, hclk, hien, -⟩ := h
      exact ⟨hfoc, hclk, hien, hw⟩
    | t1 =>
      obtain ⟨ha, hb, hres, hclk, hien, -⟩ := h
      exact ⟨ha, hb, hres, hclk, hien, hw⟩

@[simp] theorem timerStanding_updateCompare (x : TimerId) (u : CompareUnit) (cval : Half) (b : Block) :
    TimerStanding x (updateCompare u cval b) = TimerStanding x b := by
  rcases u with _ | (_ | _) | _ <;> cases x <;> rfl
@[simp] theorem timerStanding_setCounter (x : TimerId) (v : Half) (b : Block) :
    TimerStanding x (setCounter x v b) = TimerStanding x b := by cases x <;> rfl
@[simp] theorem timerStanding_loadLatches (x : TimerId) (b : Block) :
    TimerStanding x (loadLatches x b) = TimerStanding x b := by cases x <;> rfl

/-- Every step leaves every timer standing. -/
theorem timerStanding_step {x : TimerId} {s t : State} (hs : TimerStanding x s.block) (h : step s = .next t) :
    TimerStanding x t.block := by
  cases step_timerEffect x h with
  | kept hk => rwa [eq_of_view_eq (timerStanding_timerView x) hk]
  | tinit _ _ _ _ _ _ _ _ u _ _ hu _ hb => rw [hb, hu]; exact timerStanding_initUnit ..
  | tdeinit _ _ _ hb => exact timerStanding_of_timerView_reset (by rw [hb, timerView_deinit])
  | tstart _ _ k _ _ hb =>
    rw [hb]; exact timerStanding_stepLife (by decide) (timerStanding_setClockSelect (clockCode_le k) hs)
  | tstop _ _ _ hb =>
    rw [hb]; exact timerStanding_stepLife (by decide) (timerStanding_setClockSelect (by decide) hs)
  | tcmp _ _ _ _ _ _ _ _ hb | count _ _ _ hb | wrap _ _ hb => simpa [hb] using hs
  | reset _ hb => exact timerStanding_of_timerView_reset (by rw [hb, timerView_reset])

/-- Clearing a bit leaves 0 as it is. -/
theorem putBit_false_zero (i : Nat) {m : Nat} : putBit i false 0#m = 0#m := by simp [putBit, putField]

/-- XINIT keeps the lines inputs: it writes 0 to the line's direction (R160). -/
theorem epdir_initLine (p : Bool) (l : Line) (m : EdgeMode) {e : ExtLines} (h : e.epdir = 0#3) :
    (initLine p l m e).epdir = 0#3 := by
  cases l <;> simp [initLine, clearLine, setEdgeSelect, h, putBit_false_zero]

/-- XDEINIT writes no direction (R163). -/
@[simp] theorem deinitLine_epdir (l : Line) (e : ExtLines) : (deinitLine l e).epdir = e.epdir := by cases l <;> rfl

/-- Every step keeps the lines inputs. -/
theorem linesAreInputs_step {s t : State} (hl : LinesAreInputs s.block) (h : step s = .next t) :
    LinesAreInputs t.block := by
  cases step_linesEffect h with
  | kept hk => exact (congrArg (·.ext.epdir) hk).trans hl
  | xinit _ _ _ _ _ hb => rw [LinesAreInputs, hb]; exact epdir_initLine _ _ _ hl
  | xdeinit _ _ _ _ hb => rw [LinesAreInputs, hb, deinitLine_epdir]; exact hl
  | reset _ hb => rw [hb]; rfl

/-- The idle sequencer is legal. -/
theorem seqLegal_of_idle {b : Block} (h : b.seq = Seq.idle) : SeqLegal b := by
  rw [SeqLegal, h]
  exact ⟨fun _ => ⟨rfl, rfl, rfl⟩, fun hb => nomatch hb⟩

/-- Every step keeps the sequencer legal: a call records a handler and a cause, a return leaves it idle (R192, R197). -/
theorem seqLegal_step {s t : State} (hs : SeqLegal s.block) (h : step s = .next t) : SeqLegal t.block := by
  cases step_cases h with
  | same _ _ hb _ => rwa [hb]
  | command i _ hb _ =>
    by_cases hi : i = .cbret
    · subst hi
      obtain ⟨-, hret⟩ := hb.of_cbret
      exact seqLegal_of_idle (by rw [hret, returnFromDispatch_seq])
    · rwa [SeqLegal, hb.seq_eq hi]
  | event e _ _ hb _ => rwa [SeqLegal, hb, eventEffect_seq]
  | emptyEntry c _ _ _ hb _ => rwa [SeqLegal, hb, clearFlag_seq]
  | call c _ _ h0 hb _ =>
    rw [hb]
    exact ⟨(fun hidle => nomatch hidle), fun _ => ⟨h0, by simp [causeOf_codes]⟩⟩
  | reset _ hb => exact seqLegal_of_idle (by rw [hb]; rfl)

/-- Settles O54: the timers, the lines and the sequencer apart. -/
theorem standingInvariantsKept : Obligations.StandingInvariantsKept := by
  intro s t hs h
  obtain ⟨htimers, hlines, hseq⟩ := (standing_iff s.block).mp hs
  exact (standing_iff t.block).mpr
    ⟨fun x => timerStanding_step (htimers x) h, linesAreInputs_step hlines h, seqLegal_step hseq h⟩

/-! ### Updates before a wrap -/

/-- The effect of a performed command is one block. -/
theorem CommandEffect.unique {i : Instr} {b b₁ b₂ : Block} (h₁ : CommandEffect i b b₁) (h₂ : CommandEffect i b b₂) :
    b₁ = b₂ := by
  have h := (exec_of_effect (s := { State.reset with block := b }) h₁).symm.trans (exec_of_effect h₂)
  injection h with h
  exact congrArg State.block h

/-- What a TCMP leaves: latches and clocks as they were, and the buffers of the channel it names written (R140 to R143). -/
structure TcmpLeaves (tid ch : BitVec 2) (cval : Half) (b b' : Block) : Prop where
  latches : ∀ u, latchOf u b' = latchOf u b
  clocks : ∀ x, clockSelect x b' = clockSelect x b
  written : ∀ u, timerOf tid = some (unitTimer u) → (∀ y, u = .t1 y → channelOf ch = some (some y)) →
    b' = updateCompare u cval b

/-- A step that executes a TCMP, performed or not. -/
theorem step_tcmp {tid ch : BitVec 2} {cval : Half} {s t : State}
    (hi : currentCommand s = some (.tcmp tid ch cval)) (h : step s = .next t) :
    TcmpLeaves tid ch cval s.block t.block := by
  cases step_cases h with
  | same _ hc hb _ =>
    exact ⟨by simp [hb], by simp [hb], fun u hx hch => absurd (.tcmp u hx hch) (hc _ _ hi)⟩
  | command j hj hb _ =>
    obtain rfl : Instr.tcmp tid ch cval = j := Option.some.inj (hi.symm.trans hj)
    generalize t.block = b at hb ⊢
    cases hb with
    | tcmp u hx hch =>
      exact ⟨by simp, by simp, fun v hv hcv => CommandEffect.unique (.tcmp u hx hch) (.tcmp v hv hcv)⟩
  | event e he => simp [currentCommand_of_eventNext he] at hi
  | emptyEntry c hs | call c hs => simp [currentCommand_of_entryNext hs] at hi
  | reset hr => simp [currentCommand_of_resetNext hr] at hi

/-- A scheduled event that is enabled has its effect. -/
theorem step_event {s : State} {e : Event} {rest : List Move} (hs : s.schedule = .event e :: rest)
    (he : eventEnabled e s.block = true) : step s = .next (moved (eventEffect e s.block) rest s) := by
  simp only [step, nextTurn, hs, raiseEvent, he]
  rfl

/-- An update of T0 or T2 truncates the value to 8 bits (R141, R145). -/
theorem bufferOf_updateCompare_8 {u : CompareUnit} (h : unitTimer u ≠ .t1) (cval : Half) (b : Block) :
    bufferOf u (updateCompare u cval b) = (cval.setWidth 8).setWidth 16 := by
  cases u with
  | t1 y => exact absurd rfl h
  | t0 | t2 => rfl

/-- Settles O21: two updates that leave every latch, then the wrap, which loads the buffers the second one wrote. -/
theorem updateTakesEffectAtWrap : Obligations.UpdateTakesEffectAtWrap := by
  intro w₁ w₂ tid ch ch' v₁ v₂ x rest s hs hw₁ hw₂ hx hclk
  obtain ⟨a, ha⟩ := exists_step s
  have hsa : a.schedule = .command w₂ :: .event (.wrap x) :: rest := by rw [step_schedule ha, hs]; rfl
  obtain ⟨m, hm⟩ := exists_step a
  have hsm : m.schedule = .event (.wrap x) :: rest := by rw [step_schedule hm, hsa]; rfl
  have first := step_tcmp (currentCommand_of_schedule hs hw₁) ha
  have second := step_tcmp (currentCommand_of_schedule hsa hw₂) hm
  have hen : eventEnabled (.wrap x) m.block = true := by
    simpa [eventEnabled, second.clocks, first.clocks] using hclk
  have hf := step_event hsm hen
  have hafter₂ : after 2 s = .next m := by rw [after_succ_of_step _ ha, after_succ_of_step _ hm, after_zero]
  have hafter₃ : after 3 s = .next (moved (loadLatches x m.block) rest m) := by
    rw [after_succ_of_step _ ha, after_succ_of_step _ hm, after_succ_of_step _ hf, after_zero]; rfl
  have hloaded : ∀ u, unitTimer u = x → latchOf u (loadLatches x m.block) = bufferOf u m.block := by
    rintro u rfl; exact latchOf_loadLatches u m.block
  refine ⟨m, _, hafter₂, hafter₃, fun u => by rw [second.latches, first.latches], hloaded,
    fun u => bufferOf_loadLatches x u m.block, ?other, ?channelB, ?channelA⟩
  case other =>
    rintro hx1 u rfl
    have hwritten := second.written u hx (fun y hy => absurd (by rw [hy]; rfl) hx1)
    exact (hloaded u rfl).trans (by rw [hwritten, bufferOf_updateCompare_8 hx1])
  case channelB =>
    rintro rfl rfl
    have hwritten := second.written (.t1 .b) hx (by simp [channelOf])
    exact ⟨(hloaded (.t1 .a) rfl).trans (by rw [hwritten]; exact pairedPeriod_eq v₂),
      (hloaded (.t1 .b) rfl).trans (by rw [hwritten]; rfl)⟩
  case channelA =>
    rintro rfl rfl
    have hwritten := second.written (.t1 .a) hx (by simp [channelOf])
    exact (hloaded (.t1 .a) rfl).trans (by rw [hwritten]; rfl)

/-! ### Reset values -/

/-- Every mapped register reads 0 after reset (R48, R72). -/
theorem readReg_reset : ∀ a, unmapped a = false → readReg a Block.reset = some 0#16 := by decide

/-- Settles O50, by evaluating the reset block and the read map. -/
theorem resetValues : Obligations.ResetValues := ⟨rfl, readReg_reset⟩

end Sys2Proof.Machine
end

section
/-! Proofs for the register space and the order of the agents' moves (spec/20_memory.md): the step of a scheduled command
and of a scheduled entry, no nesting of handlers, the order of registrations, and the address map. -/

namespace Sys2Proof.Machine

open Sys2Proof

/-! ### The step of a scheduled command or entry -/

/-- Settles O8: whatever the move, a step ends in a state; for a command this is the inversion lemma of `exec`. -/
theorem everyStepIsNext : Obligations.EveryStepIsNext := exists_step

/-- Settles O7: the next turn is the decoded command, which `step` hands to `exec`. -/
theorem stepRunsTheDecodedCommand : Obligations.StepRunsTheDecodedCommand := by
  intro w rest i s hs hw
  have hturn : nextTurn s = .command i { s with schedule := rest } := by simp only [nextTurn, acceptWord, hs, hw]
  simp only [step, hturn]

/-- A scheduled SETCB of a source writes its slot and nothing else of the block (R150). -/
theorem step_setcb {s : State} {w : CommandWord} {src : BitVec 3} {h : Half} {x : Source} {rest : List Move}
    (hs : s.schedule = .command w :: rest) (hw : decode w = .ok (.setcb src h)) (hx : sourceOf src = some x) :
    ∃ t, step s = .next t ∧ t.block = { s.block with cb := setSlot x h s.block.cb } ∧ t.ports.call = none ∧
      t.schedule = rest := by
  have heffect : CommandEffect (.setcb src h) s.block { s.block with cb := setSlot x h s.block.cb } := .setcb x hx
  have hstep := (stepRunsTheDecodedCommand w rest _ s hs hw).trans (exec_of_effect heffect)
  exact ⟨_, hstep, rfl, rfl, rfl⟩

/-- A scheduled entry that is enabled is taken (R191). -/
theorem step_entry {s : State} {c : Cause} {rest : List Move} (hs : s.schedule = .dispatch c :: rest)
    (he : entryEnabled c s.block = true) : step s = .next (enterDispatch c { s with schedule := rest }) := by
  simp only [step, nextTurn, hs, dispatchMove, he]
  rfl

/-- A scheduled entry that is enabled and finds a handler calls it (R192). -/
theorem step_call {s : State} {c : Cause} {h : Half} {rest : List Move} (hs : s.schedule = .dispatch c :: rest)
    (he : entryEnabled c s.block = true) (hh : slotOf (causeSource c) s.block.cb = h) (h0 : h ≠ 0) :
    step s = .next { s with
      block := { s.block with seq :=
        { busy := true, src := sourceCode (causeSource c), cause := causeCode c, hnd := h } }
      ports := { response := none, call := some (callWord (causeSource c) h) }
      schedule := rest } := by
  subst hh
  exact (step_entry hs he).trans (congrArg _ (if_neg h0))

/-! ### No nesting -/

/-- Settles O35: a busy sequencer enables no entry, and CBRET is the only command that touches `SEQ`. -/
theorem noNesting : Obligations.NoNesting := by
  intro s t hbusy h
  have hno : ∀ c, entryEnabled c s.block ≠ true := fun c he => by
    simp [((entryEnabled_iff c s.block).mp he).1] at hbusy
  cases step_cases h with
  | same _ _ hb hp => exact ⟨hp, fun _ _ => by rw [hb]⟩
  | command i hi hb hp => exact ⟨hp, fun hc _ => hb.seq_eq fun hcb => hc (hcb ▸ hi)⟩
  | event e _ _ hb hp => exact ⟨hp, fun _ _ => by rw [hb, eventEffect_seq]⟩
  | emptyEntry c _ he | call c _ he => exact absurd he (hno c)
  | reset hr _ hp => exact ⟨hp, fun _ hn => by simp [hr] at hn⟩

/-! ### The order of registrations -/

/-- The slots have no part in whether an entry is enabled (R185, R191). -/
@[simp] theorem entryEnabled_cb (c : Cause) (b : Block) (cb : Slots) :
    entryEnabled c { b with cb := cb } = entryEnabled c b := by
  cases c <;> rfl

/-- An entry right after a SETCB of its source calls the handler just registered (R84, R152). -/
theorem steps_setcb_call {s : State} {w : CommandWord} {src : BitVec 3} {h : Half} {c : Cause} {rest : List Move}
    (hs : s.schedule = .command w :: .dispatch c :: rest) (hw : decode w = .ok (.setcb src h))
    (hx : sourceOf src = some (causeSource c)) (he : entryEnabled c s.block = true) (h0 : h ≠ 0) :
    ∃ m t, step s = .next m ∧ step m = .next t ∧ t.ports.call = some (callWord (causeSource c) h) ∧
      t.block.seq.hnd = h ∧ t.schedule = rest := by
  obtain ⟨m, hm, hb, -, hsm⟩ := step_setcb hs hw hx
  have hem : entryEnabled c m.block = true := by rw [hb, entryEnabled_cb, he]
  have hslot : slotOf (causeSource c) m.block.cb = h := by rw [hb, slotOf_setSlot_same]
  exact ⟨m, _, hm, step_call hsm hem hslot h0, rfl, rfl, rfl⟩

/-- Settles O23: the entry calls what the SETCB right before it registered, and a SETCB after the call writes only the
slot. -/
theorem lastRegistrationWins : Obligations.LastRegistrationWins := by
  intro wa wb src a b c rest s hwa hwb hx hidle hreq
  have he : entryEnabled c s.block = true := (entryEnabled_iff c s.block).mpr ⟨hidle, hreq⟩
  refine ⟨fun hb hs => ?bothBefore, fun ha hs => ?entryBetween⟩
  case bothBefore =>
    obtain ⟨m, hfirst, hm, -, hsm⟩ := step_setcb hs hwa hx
    have hem : entryEnabled c m.block = true := by rw [hm, entryEnabled_cb, he]
    obtain ⟨n, t, hsecond, hentry, hcall, hhnd, -⟩ := steps_setcb_call hsm hwb hx hem hb
    have hrun := calc after 3 s
      _ = after 2 m := after_succ_of_step 2 hfirst
      _ = after 1 n := after_succ_of_step 1 hsecond
      _ = .next t := after_succ_of_step 0 hentry
    exact ⟨t, hrun, hcall, hhnd⟩
  case entryBetween =>
    obtain ⟨n, m, hfirst, hentry, hcall, hhnd, hsm⟩ := steps_setcb_call hs hwa hx he ha
    obtain ⟨t, hsecond, ht, hquiet, -⟩ := step_setcb hsm hwb hx
    have hrun₂ : after 2 s = .next m := (after_succ_of_step 1 hfirst).trans (after_succ_of_step 0 hentry)
    have hrun₃ := calc after 3 s
      _ = after 2 n := after_succ_of_step 2 hfirst
      _ = after 1 m := after_succ_of_step 1 hentry
      _ = .next t := after_succ_of_step 0 hsecond
    exact ⟨m, t, hrun₂, hcall, hrun₃, by rw [ht, hhnd], hquiet, by rw [ht, slotOf_setSlot_same]⟩

/-! ### The address map -/

/-- The view of `SEQ` is its three fields side by side (R44). -/
theorem seqStatus_eq (q : Seq) :
    seqStatus q = (if q.busy then 0x8000#16 else 0#16) ||| q.src.setWidth 16 <<< 4 ||| q.cause.setWidth 16 := by
  unfold seqStatus
  generalize q.busy = busy, q.src = src, q.cause = cause
  revert busy src cause
  decide

/-- The address alone says whether a read finds a register (R72). -/
theorem isSome_readReg (a : BitVec 8) (b b' : Block) : (readReg a b).isSome = (readReg a b').isSome := by
  unfold readReg
  split <;> rfl

/-- The unmapped addresses are those of R171. -/
theorem readReg_eq_none_iff (a : BitVec 8) (b : Block) : readReg a b = none ↔ unmapped a = true := by
  have hreset : ∀ a, (readReg a Block.reset).isSome = !unmapped a := by decide
  rw [← Option.isNone_iff_eq_none, ← Option.not_isSome, isSome_readReg a b Block.reset, hreset, Bool.not_not]

/-- Settles O28: the rows of the map as they stand, the view of `SEQ`, and the addresses of no row. -/
theorem addressMap : Obligations.AddressMap := fun b =>
  ⟨rfl, rfl, rfl, rfl, rfl, congrArg some (seqStatus_eq b.seq), rfl, fun a => readReg_eq_none_iff a b⟩

end Sys2Proof.Machine
end

section
/-! Proofs for the encoding of commands and responses (spec/30_encoding.md): what decoding a word means, stated once;
the round trip and the unused bits that follow from it; the answers to reserved opcodes and to invalid codes; the response
word; and when the callback port is driven. -/

namespace Sys2Proof

open Sys2Proof.Laws.Opcode (opcodeOf opField_encode)

/-! ### What decoding a word means -/

/-- The command of the same mnemonic with its operands read from the fields of the word `w` (R91, R95). -/
def Instr.readFrom (w : CommandWord) : Instr → Instr
  | .tinit .. =>
    .tinit (tidField w) (modeField w) (clkField w) (comField w) (chField w) (ivalField w) (cvalField w)
  | .tstart .. => .tstart (tidField w) (clkField w)
  | .tstop _ => .tstop (tidField w)
  | .tdeinit _ => .tdeinit (tidField w)
  | .tcmp .. => .tcmp (tidField w) (chField w) (cvalField w)
  | .setcb .. => .setcb (srcField w) (hndField w)
  | .xinit .. => .xinit (lineField w) (edgeField w)
  | .xdeinit _ => .xdeinit (lineField w)
  | .cbret => .cbret
  | .rdreg _ => .rdreg (addrField w)

/-- A word decodes to a command exactly when it has the command's opcode and holds its operands in their fields. -/
theorem decode_eq_ok_iff (w : CommandWord) (i : Instr) :
    decode w = .ok i ↔ opField w = opcodeOf i ∧ i.readFrom w = i := by
  constructor
  · intro h
    unfold decode at h
    split at h
    case h_11 => cases h
    all_goals
      cases h
      exact ⟨‹_›, rfl⟩
  · rintro ⟨hop, hi⟩
    rw [← hi]
    cases i <;> simp only [decode, hop, opcodeOf] <;> rfl

/-- The reserved opcodes of R97. -/
def reservedOpcodes : List (BitVec 4) := [0x0#4, 0xB#4, 0xC#4, 0xD#4, 0xE#4, 0xF#4]

/-- A reserved opcode selects no command (R97). -/
theorem decode_of_reserved {w : CommandWord} (h : opField w ∈ reservedOpcodes) :
    decode w = .error (.reservedOpcode (opField w)) := by
  unfold decode
  split
  case h_11 => rfl
  all_goals
    have hop : opField w = _ := ‹_›
    rw [hop] at h
    exact absurd h (by decide)

/-- Every opcode that is not reserved selects a command (R95). -/
theorem exists_decode_of_not_reserved {w : CommandWord} (h : opField w ∉ reservedOpcodes) :
    ∃ i, decode w = .ok i := by
  unfold decode
  split
  case h_11 =>
    exfalso
    generalize opField w = op at *
    revert op
    decide
  all_goals exact ⟨_, rfl⟩

/-! ### The round trip -/

/-- The word of a command holds the command's operands in their fields (R91). -/
theorem readFrom_encode (i : Instr) : i.readFrom (encode i) = i := by
  cases i <;>
    simp (disch := omega) [Instr.readFrom, encode, tidField, modeField, clkField, comField, chField, ivalField,
      cvalField, srcField, hndField, lineField, edgeField, addrField, extractLsb'_or, extractLsb'_place_same,
      extractLsb'_place_other]

/-- Settles O1: a word built from an opcode and operands has that opcode and holds those operands. -/
theorem decodeOfEncode : Obligations.DecodeOfEncode := fun i =>
  (decode_eq_ok_iff (encode i) i).mpr ⟨opField_encode i, readFrom_encode i⟩

/-! ### Unused bits -/

/-- A word with the command's opcode is, in its used bits, the word of the operands it holds (R92, R98). -/
theorem encode_readFrom {w : CommandWord} {i : Instr} (hop : opField w = opcodeOf i) :
    encode (i.readFrom w) = w &&& usedMask i := by
  have hopcode : place 60 (opcodeOf i) = w &&& place 60 (BitVec.allOnes 4) := by
    rw [← hop, opField, place_extractLsb']
  cases i
  all_goals
    simp only [opcodeOf, BitVec.ofNat_eq_ofNat] at hopcode
    simp only [encode, Instr.readFrom, tidField, modeField, clkField, comField, chField, ivalField, cvalField, srcField,
      hndField, lineField, edgeField, addrField, place_extractLsb', hopcode, ← BitVec.and_or_distrib_left, usedMask]
    exact congrArg (w &&& ·) (by decide)

/-- Every used mask covers the opcode (R92). -/
theorem opField_and_usedMask (w : CommandWord) (i : Instr) : opField (w &&& usedMask i) = opField w :=
  extractLsb'_and_of_covers (by cases i <;> simp only [usedMask] <;> decide)

/-- Commands with the same word are the same. -/
theorem encode_injective : Function.Injective encode := fun i j h => by
  simpa [decodeOfEncode i, decodeOfEncode j] using congrArg decode h

/-- A word decodes to a command exactly when its used bits are those of the command's own word (R98). -/
theorem decode_eq_ok_iff_and_usedMask (w : CommandWord) (i : Instr) :
    decode w = .ok i ↔ w &&& usedMask i = encode i := by
  rw [decode_eq_ok_iff]
  constructor
  · rintro ⟨hop, hi⟩
    rw [← encode_readFrom hop, hi]
  · intro h
    have hop : opField w = opcodeOf i := by rw [← opField_and_usedMask w i, h, opField_encode i]
    exact ⟨hop, encode_injective ((encode_readFrom hop).trans h)⟩

end Sys2Proof

namespace Sys2Proof.Machine

open Sys2Proof

/-- Settles O2: the used bits alone decide what a word decodes to, and `exec` does not look at `ch` on T0 and T2. -/
theorem unusedBitsAreIgnored : Obligations.UnusedBitsAreIgnored := by
  refine ⟨fun w i hw => ?words, fun ch cval s => ⟨rfl, rfl⟩, fun cval => ?dash⟩
  case words =>
    have hbits : w &&& usedMask i = encode i := (decode_eq_ok_iff_and_usedMask w i).mp hw
    exact ⟨hbits.symm, fun v hv => (decode_eq_ok_iff_and_usedMask v i).mpr (hv.trans hbits)⟩
  case dash =>
    have hnum : numOperand 16 (.num cval.toNat) = some cval := by simp [numOperand, numCode, cval.isLt]
    simp only [assemble, hnum]
    exact ⟨rfl, rfl⟩

/-! ### Words that select no command, and invalid codes -/

/-- An IGNORED response leaves everything but the response port (R182). -/
theorem respond_ignored (s : State) : respond .ignored 0 s = answered 0x80000000#32 s.block s := rfl

/-- A word that selects no command is answered IGNORED (R97). -/
theorem step_of_decode_error {s : State} {w : CommandWord} {e : DecodeError} {rest : List Move}
    (hs : s.schedule = .command w :: rest) (hw : decode w = .error e) :
    step s = .next (respond .ignored 0 { s with schedule := rest }) := by
  simp only [step, nextTurn, acceptWord, hs, hw]

/-- Settles O3, from what the opcode says about decoding. -/
theorem reservedOpcodesAreNoOps : Obligations.ReservedOpcodesAreNoOps := fun _ _ s hs =>
  ⟨fun hop => (step_of_decode_error hs (decode_of_reserved hop)).trans
      (congrArg Host.Outcome.next (respond_ignored _)),
    exists_decode_of_not_reserved, exists_step s⟩

/-- A code that is not valid names nothing (R94). -/
theorem eq_none_of_invalid {α : Type} {o : Option α} {valid : Bool} (hv : o.isSome = valid) (h : valid = false) :
    o = none := by simpa [h] using hv

/-- An invalid code in a used field makes a command a no-op answered IGNORED (R96). -/
theorem exec_of_not_wellFormed {i : Instr} (h : i.wellFormed = false) (s : State) : exec i s = ignore s := by
  cases i with
  | tinit tid mode clk com ch ival cval =>
    rw [Instr.wellFormed, ← timerOf_isSome, ← clockOf_isSome, ← channelOf_isSome] at h
    simp only [exec, execTinit]
    split
    case h_1 hx hk ho => simp [hx, hk, ho] at h
    case h_2 => rfl
  | tstart tid clk =>
    rw [Instr.wellFormed, ← timerOf_isSome, ← clockOf_isSome] at h
    simp only [exec, execTstart]
    split
    case h_1 hx hk => simp [hx, hk] at h
    case h_2 => rfl
  | tcmp tid ch cval =>
    by_cases htid : tid = 1#2
    · subst htid
      have hch : (ch == 1#2 || ch == 2#2) = false := h
      have hnone : ch = 0#2 ∨ ch = 3#2 := by clear h; revert ch; decide
      rcases hnone with rfl | rfl <;> rfl
    · have hvalid : validTid tid = false := by simpa [Instr.wellFormed, htid] using h
      simp only [exec, execTcmp, eq_none_of_invalid (timerOf_isSome tid) hvalid]
  | tstop tid => simp only [exec, execTstop, eq_none_of_invalid (timerOf_isSome tid) h]
  | tdeinit tid => simp only [exec, execTdeinit, eq_none_of_invalid (timerOf_isSome tid) h]
  | setcb src hnd => simp only [exec, execSetcb, eq_none_of_invalid (sourceOf_isSome src) h]
  | xinit line edge => simp only [exec, execXinit, eq_none_of_invalid (lineOf_isSome line) h]
  | xdeinit line => simp only [exec, execXdeinit, eq_none_of_invalid (lineOf_isSome line) h]
  | cbret | rdreg => cases h

/-- Settles O4: the command is ignored, and an IGNORED response changes nothing. -/
theorem invalidCodesAreNoOps : Obligations.InvalidCodesAreNoOps := fun _ s h =>
  (exec_of_not_wellFormed h s).trans (congrArg Host.Outcome.next (respond_ignored s))

/-! ### The response word -/

section ResponseFields

variable (st : Status) (d : Half)

/-- Bits 15:0 (R99). -/
@[simp] theorem responseWord_data : (responseWord st d).extractLsb' 0 16 = d := by
  ext i hi
  have h1 : i < 32 := by omega
  have h2 : i < 30 := by omega
  simp [responseWord, h1, h2, BitVec.getLsbD_eq_getElem hi]

/-- Bits 29:16 (R99). -/
@[simp] theorem responseWord_middle : (responseWord st d).extractLsb' 16 14 = 0#14 := by
  ext i hi
  have h1 : 16 + i < 30 := by omega
  simp [responseWord, h1]

/-- Bits 31:30 (R99). -/
@[simp] theorem responseWord_status : (responseWord st d).extractLsb' 30 2 = statusCode st := by
  ext i hi
  have h1 : 30 + i < 32 := by omega
  simp [responseWord, h1, BitVec.getLsbD_of_ge d (30 + i) (by omega), BitVec.getLsbD_eq_getElem hi]

/-- Status 3 is never produced (R100). -/
theorem statusCode_ne_three : statusCode st ≠ 3#2 := by cases st <;> decide

/-- Status OK is 0, so the response is its data (R99, R100). -/
theorem responseWord_ok : responseWord .ok d = d.setWidth 32 := by simp [responseWord, statusCode]

end ResponseFields

/-- A command's one response carries the value of the register it reads, or the data 0 (R99). -/
theorem exec_responds (i : Instr) (s : State) :
    (∃ a v, i = .rdreg a ∧ readReg a s.block = some v ∧ exec i s = .next (respond .ok v s)) ∨
      ((∀ a v, i = .rdreg a → readReg a s.block ≠ some v) ∧
        ∃ st b, exec i s = .next (respond st 0 { s with block := b })) := by
  by_cases hread : ∃ a v, i = .rdreg a ∧ readReg a s.block = some v
  · obtain ⟨a, v, rfl, hv⟩ := hread
    exact .inl ⟨a, v, rfl, hv, by simp only [exec, execRdreg, hv]⟩
  · refine .inr ⟨fun a v hi hv => hread ⟨a, v, hi, hv⟩, ?_⟩
    rcases exec_cases i s with ⟨b, _, h⟩ | ⟨a, v, hi, hv, _⟩ | h | h
    · exact ⟨.ok, b, h⟩
    · exact absurd ⟨a, v, hi, hv⟩ hread
    · exact ⟨.configError, s.block, h⟩
    · exact ⟨.ignored, s.block, h⟩

/-- Settles O9: the fields of the response word, and the data of a command's response. -/
theorem oneResponsePerWord : Obligations.OneResponsePerWord := by
  intro w rest s hs
  cases hw : decode w with
  | error e =>
    exact ⟨_, _, step_of_decode_error hs hw, rfl, rfl, by simp, by simp [statusCode_ne_three], by simp, by simp⟩
  | ok i =>
    have hstep : step s = exec i { s with schedule := rest } := stepRunsTheDecodedCommand w rest i s hs hw
    rcases exec_responds i { s with schedule := rest } with ⟨a, v, rfl, hv, h⟩ | ⟨hno, st, b, h⟩
    · refine ⟨_, _, hstep.trans h, rfl, rfl, by simp, by simp [statusCode_ne_three], ?value, fun hne => ?other⟩
      case value =>
        rintro _ v' ⟨⟩ hv'
        cases hv.symm.trans hv'
        exact responseWord_ok v
      case other => exact absurd hv (hne a v rfl)
    · refine ⟨_, _, hstep.trans h, rfl, rfl, by simp, by simp [statusCode_ne_three], ?_, by simp⟩
      rintro a v ⟨⟩ hv
      exact absurd hv (hno a v rfl)

/-! ### The callback port -/

/-- A step either is an entry that calls a handler, or it drives no call and makes nothing busy (R190, R192). -/
theorem step_calls_or_drives_no_call {s t : State} (h : step s = .next t) :
    (∃ c, EntryNext c s ∧ entryEnabled c s.block = true ∧ slotOf (causeSource c) s.block.cb ≠ 0 ∧
      t.block.seq = { busy := true, src := sourceCode (causeSource c), cause := causeCode c
                      hnd := slotOf (causeSource c) s.block.cb } ∧
      t.ports.call = some (callWord (causeSource c) (slotOf (causeSource c) s.block.cb))) ∨
    (t.ports.call = none ∧ (t.block.seq.busy = true → s.block.seq.busy = true)) := by
  cases step_cases h with
  | call c hs he h0 hb hp => exact .inl ⟨c, hs, he, h0, by rw [hb], hp⟩
  | same _ _ hb hp => exact .inr ⟨hp, by simp [hb]⟩
  | command i _ hb hp =>
    by_cases hcb : i = .cbret
    · subst hcb
      exact .inr ⟨hp, fun _ => hb.of_cbret.1⟩
    · exact .inr ⟨hp, by simp [hb.seq_eq hcb]⟩
  | event e _ _ hb hp => exact .inr ⟨hp, by simp [hb]⟩
  | emptyEntry c _ _ _ hb hp => exact .inr ⟨hp, by simp [hb]⟩
  | reset _ hb hp => exact .inr ⟨hp, by simp [hb, Block.reset, Seq.idle]⟩

/-- Settles O36: only an entry that calls makes the sequencer busy, and only CBRET and reset free it. -/
theorem busyChangesOnlyAtEntryAndReturn : Obligations.BusyChangesOnlyAtEntryAndReturn := by
  intro s t h
  refine ⟨fun hidle hbusy => ?entry, ?port, fun hbusy hidle => ?freed⟩
  case entry =>
    rcases step_calls_or_drives_no_call h with ⟨c, hs, he, h0, hq, hp⟩ | ⟨_, hkept⟩
    · exact ⟨c, hs, ((entryEnabled_iff c s.block).mp he).2, h0, by rw [hq], by rw [hq], by rw [hq],
        by rw [hp, callWord_eq]⟩
    · simp [hkept hbusy] at hidle
  case port =>
    rcases step_calls_or_drives_no_call h with ⟨c, _, he, _, hq, hp⟩ | ⟨hp, hkept⟩
    · simp [hp, hq, ((entryEnabled_iff c s.block).mp he).1]
    · exact ⟨fun hc => absurd hp hc, fun ⟨hidle, hbusy⟩ => by simp [hkept hbusy] at hidle⟩
  case freed =>
    cases step_seqEffect h with
    | kept _ _ hq => simp [hq, hbusy] at hidle
    | entered _ _ _ hq => simp [hq] at hidle
    | returned hc => exact .inl hc
    | reset hr => exact .inr hr

/-! ### Words and lines the spec prints -/

/-- Settles O5, by decoding each word. -/
theorem documentedWordsDecode : Obligations.DocumentedWordsDecode := by
  unfold Obligations.DocumentedWordsDecode
  decide

/-- Settles O6, by assembling each line. -/
theorem assemblerLinesGiveTheirWords : Obligations.AssemblerLinesGiveTheirWords := by
  unfold Obligations.AssemblerLinesGiveTheirWords
  decide

end Sys2Proof.Machine
end

section
/-! Proofs for the timer configuration commands (spec/40_timer_config.md): the answers of a command, what a stop and a
start leave, the closed form of TINIT's register image, and which TINITs are accepted. -/

namespace Sys2Proof.Machine

open Sys2Proof

/-! ### Field writes over field writes -/

/-- A second write of a field replaces the first. -/
theorem putField_putField_same {m n : Nat} (lo : Nat) (v w : BitVec n) (r : BitVec m) :
    putField lo v (putField lo w r) = putField lo v r := by
  apply BitVec.eq_of_getLsbD_eq
  intro i hi
  simp only [getLsbD_putField]
  by_cases h : lo ≤ i ∧ i < lo + n
  · simp only [if_pos h]
  · simp only [if_neg h, hi, decide_true, Bool.true_and]

/-- Writing a field back leaves the register. -/
theorem putField_getField {m n : Nat} (lo : Nat) (r : BitVec m) : putField lo (getField lo n r) r = r := by
  apply BitVec.eq_of_getLsbD_eq
  intro i hi
  rw [getLsbD_putField]
  by_cases h : lo ≤ i ∧ i < lo + n
  · have h1 : i - lo < n := by omega
    have h2 : lo + (i - lo) = i := by omega
    simp [getField, hi, h, h1, h2]
  · simp [hi, h]

/-- The clock field is bits 2:0 of its control register (R24, R26). -/
theorem putField_clock (cs : BitVec 3) (r : BitVec 8) : putField 0 cs r = r &&& 0xF8#8 ||| cs.setWidth 8 := by
  simp [putField]

/-! ### Stopping and starting -/

section StopAndStart

variable (x : TimerId) (b : Block)

@[simp] theorem setClockSelect_setClockSelect (v w : BitVec 3) :
    setClockSelect x v (setClockSelect x w b) = setClockSelect x v b := by
  cases x <;> simp [setClockSelect, putField_putField_same]

/-- Writing the clock select a timer has leaves the block. -/
@[simp] theorem setClockSelect_clockSelect : setClockSelect x (clockSelect x b) b = b := by
  cases x <;> simp [setClockSelect, clockSelect, putField_getField]

@[simp] theorem setLife_setLife (v w : BitVec 2) : setLife x v (setLife x w b) = setLife x v b := by cases x <;> rfl

/-- Writing the lifecycle a timer has leaves the block. -/
@[simp] theorem setLife_lifeOf : setLife x (lifeOf x b) b = b := by cases x <;> rfl

/-- Clock select and lifecycle are written independently. -/
theorem setClockSelect_setLife (v : BitVec 3) (w : BitVec 2) :
    setClockSelect x v (setLife x w b) = setLife x w (setClockSelect x v b) := by cases x <;> rfl

/-- A write of the lifecycle leaves the owned set (R23). -/
theorem ownedEqual_setLife (v : BitVec 2) : OwnedEqual x (setLife x v b) b := by cases x <;> simp [OwnedEqual, setLife]

/-- A stop and a start with the same clock leave everything but a Stopped lifecycle (R125, R126, R127). -/
theorem start_stop_eq_setLife :
    stepLife x lifeStopped lifeConfigured
        (setClockSelect x (clockSelect x b) (stepLife x lifeConfigured lifeStopped (setClockSelect x 0 b))) =
      setLife x (if lifeOf x b = lifeStopped then lifeConfigured else lifeOf x b) b := by
  simp only [stepLife_eq_setLife, setClockSelect_setLife, setClockSelect_setClockSelect, setClockSelect_clockSelect,
    setLife_setLife, lifeOf_setLife_same, lifeOf_setClockSelect]
  by_cases h : lifeOf x b = lifeConfigured <;> simp [h]

/-- A clock write with its lifecycle step, register by register (R125, R126). -/
theorem stepLife_setClockSelect (v w : BitVec 2) (cs : BitVec 3) :
    stepLife x v w (setClockSelect x cs b) =
      match x with
      | .t0 => { b with t0 := { b.t0 with
          ctrl := b.t0.ctrl &&& 0xF8#8 ||| cs.setWidth 8, life := if b.t0.life = v then w else b.t0.life } }
      | .t1 => { b with t1 := { b.t1 with
          ctrlb := b.t1.ctrlb &&& 0xF8#8 ||| cs.setWidth 8, life := if b.t1.life = v then w else b.t1.life } }
      | .t2 => { b with t2 := { b.t2 with
          ctrl := b.t2.ctrl &&& 0xF8#8 ||| cs.setWidth 8, life := if b.t2.life = v then w else b.t2.life } } := by
  rw [stepLife_eq_setLife, lifeOf_setClockSelect]
  cases x <;> simp only [setClockSelect, putField_clock] <;> rfl

end StopAndStart

/-! ### The answers of a command -/

/-- A command that can be performed is answered OK, with nothing but the block changed (R99, R100). -/
theorem exec_answered_of_effect {i : Instr} {s : State} {b : Block} (h : CommandEffect i s.block b) :
    exec i s = .next (answered 0x00000000#32 b s) :=
  exec_of_effect h

/-- A command that can be performed with an effect in closed form. -/
theorem exec_answered_of_effect_eq {i : Instr} {s : State} {b b' : Block} (h : CommandEffect i s.block b)
    (hb : b = b') : exec i s = .next (answered 0x00000000#32 b' s) :=
  hb ▸ exec_answered_of_effect h

/-! ### The register image of TINIT -/

section Images

variable (mode com : BitVec 2) (k : ClockPrescale) (ival cval : Half)

/-- The interrupt TINIT enables on an 8-bit timer, by the mode's code (R124). -/
theorem putBit_enableBit8_modeOf :
    putBit (enableBit8 (modeOf mode)) true 0#2 = if mode = 0#2 then 0b01#2 else 0b10#2 := by
  revert mode; decide

/-- The modes in which TINIT drives the pin, by their codes (R122). -/
theorem isPwm_modeOf : isPwm (modeOf mode) = decide (mode = 1#2 ∨ mode = 3#2) := by
  revert mode; decide

/-- TINIT of an 8-bit timer leaves the image of R129. -/
theorem initTimer8_eq_image (r : Timer8) :
    initTimer8 (modeOf mode) k (outputModeOf com) ival cval r =
      tinitImage8 mode (clockCode k) com ival cval r.iflg := by
  have hctrl : ∀ (mode com : BitVec 2) (clk : BitVec 3),
      putField 3 com (putField 5 mode (putField 0 clk 0#8)) =
        mode.setWidth 8 <<< 5 ||| com.setWidth 8 <<< 3 ||| clk.setWidth 8 := by decide
  have hpin : putBit 0 true 0#1 = 1#1 := by decide
  simp [initTimer8, tinitImage8, clearOwned8, hctrl, hpin, isPwm_modeOf, putBit_enableBit8_modeOf, mask8,
    lifeConfigured]

/-- TINIT of T1 on channel A leaves the image of R129. -/
theorem initTimer16_a_eq_image (r : Timer16) :
    initTimer16 .a (modeOf mode) k (outputModeOf com) ival cval r =
      tinitImageA mode (clockCode k) com ival cval r.iflg := by
  have hctrla : ∀ mode com : BitVec 2,
      putField 6 com (putField 0 mode 0#8) = com.setWidth 8 <<< 6 ||| mode.setWidth 8 := by decide
  have hien : ∀ mode : BitVec 2, putBit (enableBit16 (modeOf mode) .a) true 0#3 =
      if mode = 0#2 then 0b001#3 else 0b010#3 := by decide
  have hpin : putBit 0 true 0#2 = 0b01#2 := by decide
  simp [initTimer16, tinitImageA, initCompare16, clearOwned16, comOffset, pinBit, hctrla, hien, hpin, putField_clock,
    isPwm_modeOf, lifeConfigured]

/-- TINIT of T1 on channel B leaves the image of R129. -/
theorem initTimer16_b_eq_image (r : Timer16) :
    initTimer16 .b (modeOf mode) k (outputModeOf com) ival cval r =
      tinitImageB mode (clockCode k) com ival cval r.iflg := by
  have hctrla : ∀ mode com : BitVec 2,
      putField 4 com (putField 0 mode 0#8) = com.setWidth 8 <<< 4 ||| mode.setWidth 8 := by decide
  have hien : ∀ mode : BitVec 2, putBit (enableBit16 (modeOf mode) .b) true 0#3 =
      if mode = 0#2 then 0b001#3 else 0b100#3 := by decide
  have hpin : putBit 1 true 0#2 = 0b10#2 := by decide
  simp [initTimer16, tinitImageB, initCompare16_b, clearOwned16, comOffset, pinBit, hctrla, hien, hpin, putField_clock,
    isPwm_modeOf, pairsOnInit_modeOf, pairedPeriod_eq, lifeConfigured]

/-- The owned set after TINIT is a function of the operands alone (R129, R130). -/
theorem ownedEqual_initUnit (u : CompareUnit) (b c : Block) :
    OwnedEqual (unitTimer u) (initUnit u (modeOf mode) k (outputModeOf com) ival cval b)
      (initUnit u (modeOf mode) k (outputModeOf com) ival cval c) := by
  rcases u with _ | (_ | _) | _
  case t0 | t2 => simp [OwnedEqual, unitTimer, initUnit, initTimer8_eq_image, tinitImage8]
  case t1.a => simp [OwnedEqual, unitTimer, initUnit, initTimer16_a_eq_image, tinitImageA]
  case t1.b => simp [OwnedEqual, unitTimer, initUnit, initTimer16_b_eq_image, tinitImageB]

end Images

/-- Settles O13: an accepted TINIT leaves its unit's image. -/
theorem tinitRegisterImage : Obligations.TinitRegisterImage := by
  refine ⟨fun w hop => (decode_eq_ok_iff w _).mpr ⟨hop, rfl⟩, fun mode clk com ival cval s h6 h7 => ?_⟩
  obtain ⟨k, hk, rfl⟩ := exists_clockOf h6 h7
  refine ⟨exec_answered_of_effect_eq (.tinit .t0 k none .t0 rfl hk rfl rfl) ?t0,
    exec_answered_of_effect_eq (.tinit .t2 k none .t2 rfl hk rfl rfl) ?t2,
    exec_answered_of_effect_eq (.tinit .t1 k (some .a) (.t1 .a) rfl hk rfl rfl) ?t1a,
    exec_answered_of_effect_eq (.tinit .t1 k (some .b) (.t1 .b) rfl hk rfl rfl) ?t1b⟩
  case t0 | t2 => rw [initUnit, initTimer8_eq_image]
  case t1a => rw [initUnit, initTimer16_a_eq_image]
  case t1b => rw [initUnit, initTimer16_b_eq_image]

/-! ### Which TINITs are accepted -/

section Accepted

variable {tid mode com ch : BitVec 2} {clk : BitVec 3} {ival cval : Half}

/-- The codes of a well-formed TINIT name a timer, a prescale and a channel or none (R94, R96). -/
theorem tinit_codes_of_wellFormed (h : (Instr.tinit tid mode clk com ch ival cval).wellFormed = true) :
    ∃ x k o, timerOf tid = some x ∧ clockOf clk = some k ∧ channelOf ch = some o := by
  simp only [Instr.wellFormed, ← timerOf_isSome, ← clockOf_isSome, ← channelOf_isSome, Bool.and_eq_true,
    Option.isSome_iff_exists] at h
  obtain ⟨⟨⟨x, hx⟩, ⟨k, hk⟩⟩, ⟨o, ho⟩⟩ := h
  exact ⟨x, k, o, hx, hk, ho⟩

/-- A pairing names a compare channel exactly when it is neither CE1 nor CE2 (R121, R181). -/
theorem unitOf_isSome {x : TimerId} {o : Option Channel} (hx : timerOf tid = some x) (ho : channelOf ch = some o) :
    (unitOf x o).isSome = !pairingError (.tinit tid mode clk com ch ival cval) := by
  simp only [pairingError]
  rcases o with _ | _ | _ <;> cases x <;> revert tid ch <;> decide

/-- A TINIT with an illegal pairing of valid codes is a ConfigurationError (R121). -/
theorem exec_tinit_of_pairingError (hw : (Instr.tinit tid mode clk com ch ival cval).wellFormed = true)
    (hp : pairingError (.tinit tid mode clk com ch ival cval) = true) (s : State) :
    exec (.tinit tid mode clk com ch ival cval) s = .next (answered 0x40000000#32 s.block s) := by
  obtain ⟨x, k, o, hx, hk, ho⟩ := tinit_codes_of_wellFormed hw
  have hu : unitOf x o = none := eq_none_of_invalid ((unitOf_isSome hx ho).trans (congrArg not hp)) rfl
  simp only [exec, execTinit, hx, hk, ho, hu]
  rfl

/-- A TINIT with valid codes and a legal pairing can be performed in every state (R121). -/
theorem exists_effect_of_tinit (hw : (Instr.tinit tid mode clk com ch ival cval).wellFormed = true)
    (hp : pairingError (.tinit tid mode clk com ch ival cval) = false) :
    ∃ k u, timerOf tid = some (unitTimer u) ∧ ∀ b, CommandEffect (.tinit tid mode clk com ch ival cval) b
      (initUnit u (modeOf mode) k (outputModeOf com) ival cval b) := by
  obtain ⟨x, k, o, hx, hk, ho⟩ := tinit_codes_of_wellFormed hw
  obtain ⟨u, hu⟩ := Option.isSome_iff_exists.mp ((unitOf_isSome hx ho).trans (congrArg not hp))
  exact ⟨k, u, (unitOf_eq_some hu).1 ▸ hx, fun _ => .tinit x k o u hx hk ho hu⟩

/-- The invalid codes of R121 step 1. -/
theorem tinit_wellFormed_eq_false_iff : (Instr.tinit tid mode clk com ch ival cval).wellFormed = false ↔
    tid = 3#2 ∨ clk = 6#3 ∨ clk = 7#3 ∨ ch = 3#2 := by
  simp only [Instr.wellFormed, validTid, validClk, validCh, Bool.and_eq_false_iff, decide_eq_false_iff_not,
    not_not, or_assoc]

/-- The pairings of R121 steps 2 and 3, among valid codes. -/
theorem tinit_pairingError_iff (hch : ch ≠ 3#2) : pairingError (.tinit tid mode clk com ch ival cval) = true ↔
    ((tid = 0#2 ∨ tid = 2#2) ∧ ch ≠ 0#2) ∨ (tid = 1#2 ∧ ch = 0#2) := by
  simp only [pairingError]
  revert tid ch
  decide

end Accepted

/-- Settles O12: invalid codes first, then the pairing; what passes both is performed. -/
theorem tinitValidation : Obligations.TinitValidation := by
  intro tid mode clk com ch ival cval s
  split
  case isTrue hcode => exact invalidCodesAreNoOps _ s (tinit_wellFormed_eq_false_iff.mpr hcode)
  case isFalse hcode =>
    have hw : (Instr.tinit tid mode clk com ch ival cval).wellFormed = true :=
      Bool.of_not_eq_false (mt tinit_wellFormed_eq_false_iff.mp hcode)
    have hch : ch ≠ 3#2 := fun h => hcode (.inr (.inr (.inr h)))
    split
    case isTrue hpair => exact exec_tinit_of_pairingError hw ((tinit_pairingError_iff hch).mpr hpair) s
    case isFalse hpair =>
      have hp : pairingError (.tinit tid mode clk com ch ival cval) = false :=
        Bool.eq_false_iff.mpr (mt (tinit_pairingError_iff hch).mp hpair)
      obtain ⟨k, u, -, heffect⟩ := exists_effect_of_tinit hw hp
      exact ⟨_, exec_answered_of_effect (heffect s.block)⟩

/-- Settles O18: the owned set after an accepted TINIT does not depend on the state before it. -/
theorem tinitLeavesNoResidue : Obligations.TinitLeavesNoResidue := by
  intro tid mode clk com ch ival cval t s₁ s₂ ht hw hp
  obtain ⟨k, u, hu, heffect⟩ := exists_effect_of_tinit hw hp
  obtain rfl : t = unitTimer u := Option.some.inj (ht.symm.trans hu)
  exact ⟨_, _, exec_of_effect (heffect s₁.block), exec_of_effect (heffect s₂.block), ownedEqual_initUnit ..⟩

/-! ### TSTART, TSTOP and TDEINIT -/

/-- Settles O14, timer by timer. -/
theorem tstartResult : Obligations.TstartResult := by
  refine ⟨fun w hop => (decode_eq_ok_iff w _).mpr ⟨hop, rfl⟩, fun clk s =>
    ⟨fun h6 h7 => ?legal, fun tid h => ?invalid⟩⟩
  case legal =>
    obtain ⟨k, hk, rfl⟩ := exists_clockOf h6 h7
    exact ⟨exec_answered_of_effect_eq (.tstart .t0 k rfl hk) (stepLife_setClockSelect ..),
      exec_answered_of_effect_eq (.tstart .t1 k rfl hk) (stepLife_setClockSelect ..),
      exec_answered_of_effect_eq (.tstart .t2 k rfl hk) (stepLife_setClockSelect ..)⟩
  case invalid =>
    exact invalidCodesAreNoOps _ s (by rcases h with rfl | rfl | rfl <;> simp [Instr.wellFormed, validTid, validClk])

/-- Settles O15, timer by timer: the clock-select bits written are 0. -/
theorem tstopResult : Obligations.TstopResult := by
  refine ⟨fun w hop => (decode_eq_ok_iff w _).mpr ⟨hop, rfl⟩, fun s =>
    ⟨exec_answered_of_effect_eq (.tstop .t0 rfl) ?t0, exec_answered_of_effect_eq (.tstop .t1 rfl) ?t1,
      exec_answered_of_effect_eq (.tstop .t2 rfl) ?t2, invalidCodesAreNoOps _ s rfl⟩⟩
  case t0 | t1 | t2 => simp [stepLife_setClockSelect, lifeConfigured, lifeStopped]

/-- Settles O17: the two commands together are one write of the lifecycle. -/
theorem stopThenStartRestores : Obligations.StopThenStartRestores := by
  intro tid t s ht hclk
  have h6 : clockSelect t s.block ≠ 6#3 := fun h => absurd hclk (by rw [h]; decide)
  have h7 : clockSelect t s.block ≠ 7#3 := fun h => absurd hclk (by rw [h]; decide)
  obtain ⟨k, hk, hcode⟩ := exists_clockOf h6 h7
  refine ⟨_, _, exec_of_effect (.tstop t ht), exec_of_effect (.tstart t k ht hk), ?_⟩
  simp only [respond_block, hcode, start_stop_eq_setLife]
  refine ⟨ownedEqual_setLife .., by rw [setLife_setLife, setLife_lifeOf], fun hlife => ?_⟩
  have hkept : lifeOf t s.block ≠ lifeStopped := by rw [hlife]; decide
  rw [if_neg hkept, setLife_lifeOf]

/-- Settles O16, timer by timer. -/
theorem tdeinitResult : Obligations.TdeinitResult :=
  ⟨fun w hop => (decode_eq_ok_iff w _).mpr ⟨hop, rfl⟩, fun s =>
    ⟨exec_answered_of_effect (.tdeinit .t0 rfl), exec_answered_of_effect (.tdeinit .t1 rfl),
      exec_answered_of_effect (.tdeinit .t2 rfl), invalidCodesAreNoOps _ s rfl⟩⟩

end Sys2Proof.Machine
end

section
/-! Proofs for the compare-register update (spec/41_compare_update.md): when TCMP is performed, its effect in closed form,
and a second update of the same channel with the same value. -/

namespace Sys2Proof.Machine

open Sys2Proof

/-! ### When TCMP is performed -/

/-- A TCMP with valid codes names a compare channel and is performed in every state (R140 to R143). -/
theorem exists_effect_of_tcmp {tid ch : BitVec 2} {cval : Half} (hw : (Instr.tcmp tid ch cval).wellFormed = true) :
    ∃ u, ∀ b, CommandEffect (.tcmp tid ch cval) b (updateCompare u cval b) := by
  have hcodes : tid = 0#2 ∨ tid = 2#2 ∨ tid = 1#2 ∧ (ch = 1#2 ∨ ch = 2#2) := by
    simp only [Instr.wellFormed] at hw
    revert tid ch
    decide
  rcases hcodes with rfl | rfl | ⟨rfl, rfl | rfl⟩
  · exact ⟨.t0, fun _ => .tcmp .t0 rfl nofun⟩
  · exact ⟨.t2, fun _ => .tcmp .t2 rfl nofun⟩
  · exact ⟨.t1 .a, fun _ => .tcmp (.t1 .a) rfl fun | _, rfl => rfl⟩
  · exact ⟨.t1 .b, fun _ => .tcmp (.t1 .b) rfl fun | _, rfl => rfl⟩

/-- An update of channel B of T1 writes the pair, modulo 2^16 (R142). -/
theorem updateCompare_t1_b (cval : Half) (b : Block) :
    updateCompare (.t1 .b) cval b = { b with t1 := { b.t1 with ocra := cval + 1#16, ocrb := cval } } := by
  simp only [updateCompare, updateCompare16, pairedPeriod_eq]

/-- Settles O19: the effect on the compare channel named, or an invalid code. -/
theorem tcmpResult : Obligations.TcmpResult := by
  refine ⟨fun w hop => (decode_eq_ok_iff w _).mpr ⟨hop, rfl⟩, fun ch cval s =>
    ⟨exec_answered_of_effect (.tcmp .t0 rfl nofun), exec_answered_of_effect (.tcmp .t2 rfl nofun),
      exec_answered_of_effect (.tcmp (.t1 .a) rfl fun | _, rfl => rfl),
      exec_answered_of_effect_eq (.tcmp (.t1 .b) rfl fun | _, rfl => rfl) (updateCompare_t1_b cval s.block),
      fun hch => invalidCodesAreNoOps _ s ?noChannel, invalidCodesAreNoOps _ s rfl⟩⟩
  case noChannel => rcases hch with rfl | rfl <;> rfl

/-! ### A second equal update -/

/-- A second equal update changes nothing (R144). -/
@[simp] theorem updateCompare_updateCompare (u : CompareUnit) (cval : Half) (b : Block) :
    updateCompare u cval (updateCompare u cval b) = updateCompare u cval b := by
  rcases u with _ | (_ | _) | _ <;> rfl

/-- Nor does it after a wrap, which loads the latches and leaves the buffers the first update wrote (R32, R144). -/
@[simp] theorem updateCompare_loadLatches_updateCompare (u : CompareUnit) (x : TimerId) (cval : Half) (b : Block) :
    updateCompare u cval (loadLatches x (updateCompare u cval b)) = loadLatches x (updateCompare u cval b) := by
  rcases u with _ | (_ | _) | _ <;> cases x <;> rfl

/-- Settles O20: a TCMP with valid codes updates the same compare channel each time; one with an invalid code leaves the
block each time. -/
theorem tcmpIsIdempotent : Obligations.TcmpIsIdempotent := by
  intro tid ch cval t s
  cases hw : (Instr.tcmp tid ch cval).wellFormed with
  | true =>
    obtain ⟨u, heffect⟩ := exists_effect_of_tcmp hw
    exact ⟨_, _, _, exec_answered_of_effect (heffect _), exec_answered_of_effect (heffect _),
      updateCompare_updateCompare u cval s.block, exec_answered_of_effect (heffect _),
      updateCompare_loadLatches_updateCompare u t cval s.block⟩
  | false =>
    have hignored := fun s => invalidCodesAreNoOps _ s hw
    exact ⟨_, _, _, hignored _, hignored _, rfl, hignored _, rfl⟩

end Sys2Proof.Machine
end

section
/-! Proofs for the dispatch registry (spec/42_dispatch_registry.md): when a command is answered CONFIG_ERROR and when it is
performed, which the operands alone decide; SETCB and CBRET; and what a command does whether or not a handler runs. -/

namespace Sys2Proof.Machine

open Sys2Proof

/-! ### SETCB -/

/-- Settles O22, source by source: each source's code writes its slot, and the two codes of no source are invalid. -/
theorem setcbResult : Obligations.SetcbResult :=
  ⟨fun w hop => (decode_eq_ok_iff w _).mpr ⟨hop, rfl⟩, fun _ s =>
    ⟨exec_answered_of_effect (.setcb .timer0 rfl), exec_answered_of_effect (.setcb .timer1 rfl),
      exec_answered_of_effect (.setcb .timer2 rfl), exec_answered_of_effect (.setcb .ext0 rfl),
      exec_answered_of_effect (.setcb .ext1 rfl), exec_answered_of_effect (.setcb .ext2 rfl),
      invalidCodesAreNoOps _ s rfl, invalidCodesAreNoOps _ s rfl⟩⟩

/-! ### CBRET -/

/-- The return changes flags and `SEQ` only (R197). -/
theorem withFlagsAndSeqOf_returnFromDispatch (b : Block) : withFlagsAndSeqOf b (returnFromDispatch b) = b := by
  unfold returnFromDispatch
  split
  case h_1 c _ => exact withFlagsAndSeqOf_writeFlag c false b
  case h_2 => rfl

/-- With no handler outstanding CBRET is ignored (R154). -/
theorem exec_cbret_of_idle {s : State} (h : s.block.seq.busy = false) : exec .cbret s = ignore s := by
  simp [exec, execCbret, h]

/-- Settles O24: the return clears the flag of the cause that `SEQ` names by its codes. -/
theorem cbretResult : Obligations.CbretResult := by
  refine ⟨fun w hop => (decode_eq_ok_iff w _).mpr ⟨hop, rfl⟩, fun s => ⟨fun c hbusy hsrc hcause => ?outstanding, ?idle⟩⟩
  case outstanding =>
    have hc : causeOf s.block.seq.src s.block.seq.cause = some c := by rw [hsrc, hcause, causeOf_codes]
    refine ⟨_, exec_answered_of_effect (.cbret hbusy), ?_, fun d hd => ?_, returnFromDispatch_seq s.block,
      withFlagsAndSeqOf_returnFromDispatch s.block⟩
    · simp [flagOf_returnFromDispatch, hc]
    · simp [flagOf_returnFromDispatch, hc, hd.symm]
  case idle => exact fun hidle => (exec_cbret_of_idle hidle).trans (congrArg Host.Outcome.next (respond_ignored s))

/-! ### The operands decide the answer (R102, R121, R181) -/

/-- A pairing the block does not have is a ConfigurationError in every state (R181). -/
theorem exec_of_pairingError {i : Instr} (hw : i.wellFormed = true) (hp : pairingError i = true) (s : State) :
    exec i s = raiseConfigError s := by
  cases i with
  | tinit => exact exec_tinit_of_pairingError hw hp s
  | xinit line edge =>
    have hcodes : line = 2#2 ∧ (edge = 0#2 ∨ edge = 1#2) := by simpa [pairingError] using hp
    obtain ⟨rfl, rfl | rfl⟩ := hcodes <;> rfl
  | tstart | tstop | tdeinit | tcmp | setcb | xdeinit | cbret | rdreg => cases hp

/-- An edge mode that is no pairing error is one the line supports (R160). -/
theorem edgeSupported_of_not_pairingError {line edge : BitVec 2} {l : Line} (hl : lineOf line = some l)
    (hp : pairingError (.xinit line edge) = false) : edgeSupported l (edgeOf edge) = true := by
  simp only [pairingError] at hp
  revert line edge
  cases l <;> decide

/-- Every other command with valid codes is performed in every state, but for RDREG, which has no effect, and CBRET, which
needs a handler outstanding. -/
theorem exists_effect_of_accepted {i : Instr} (hw : i.wellFormed = true) (hp : pairingError i = false)
    (hcbret : i ≠ .cbret) (hrdreg : ∀ a, i ≠ .rdreg a) (b : Block) : ∃ b', CommandEffect i b b' := by
  cases i with
  | tinit =>
    obtain ⟨k, u, _, heffect⟩ := exists_effect_of_tinit hw hp
    exact ⟨_, heffect b⟩
  | tstart tid clk =>
    simp only [Instr.wellFormed, ← timerOf_isSome, ← clockOf_isSome, Bool.and_eq_true, Option.isSome_iff_exists] at hw
    obtain ⟨⟨x, hx⟩, k, hk⟩ := hw
    exact ⟨_, .tstart x k hx hk⟩
  | tstop tid =>
    obtain ⟨x, hx⟩ := Option.isSome_iff_exists.mp ((timerOf_isSome tid).trans hw)
    exact ⟨_, .tstop x hx⟩
  | tdeinit tid =>
    obtain ⟨x, hx⟩ := Option.isSome_iff_exists.mp ((timerOf_isSome tid).trans hw)
    exact ⟨_, .tdeinit x hx⟩
  | tcmp =>
    obtain ⟨u, heffect⟩ := exists_effect_of_tcmp hw
    exact ⟨_, heffect b⟩
  | setcb src =>
    obtain ⟨x, hx⟩ := Option.isSome_iff_exists.mp ((sourceOf_isSome src).trans hw)
    exact ⟨_, .setcb x hx⟩
  | xinit line =>
    obtain ⟨l, hl⟩ := Option.isSome_iff_exists.mp ((lineOf_isSome line).trans hw)
    exact ⟨_, .xinit l hl (edgeSupported_of_not_pairingError hl hp)⟩
  | xdeinit line =>
    obtain ⟨l, hl⟩ := Option.isSome_iff_exists.mp ((lineOf_isSome line).trans hw)
    exact ⟨_, .xdeinit l hl⟩
  | cbret => exact absurd rfl hcbret
  | rdreg a => exact absurd rfl (hrdreg a)

/-! ### Operations on a block with another `SEQ` -/

section OtherSeq

variable (q : Seq) (b : Block)

@[simp] theorem setClockSelect_with_seq (x : TimerId) (v : BitVec 3) :
    setClockSelect x v { b with seq := q } = { setClockSelect x v b with seq := q } := by cases x <;> rfl
@[simp] theorem setLife_with_seq (x : TimerId) (v : BitVec 2) :
    setLife x v { b with seq := q } = { setLife x v b with seq := q } := by cases x <;> rfl
@[simp] theorem lifeOf_with_seq (x : TimerId) : lifeOf x { b with seq := q } = lifeOf x b := by cases x <;> rfl
@[simp] theorem stepLife_with_seq (x : TimerId) (v w : BitVec 2) :
    stepLife x v w { b with seq := q } = { stepLife x v w b with seq := q } := by
  simp only [stepLife, lifeOf_with_seq]
  split
  · exact setLife_with_seq q b x w
  · rfl
@[simp] theorem clearOwned_with_seq (x : TimerId) :
    clearOwned x { b with seq := q } = { clearOwned x b with seq := q } := by cases x <;> rfl
@[simp] theorem initUnit_with_seq (u : CompareUnit) (mode : TimerMode) (clk : ClockPrescale) (com : CompareOutputMode)
    (ival cval : Half) :
    initUnit u mode clk com ival cval { b with seq := q } = { initUnit u mode clk com ival cval b with seq := q } := by
  cases u <;> rfl
@[simp] theorem updateCompare_with_seq (u : CompareUnit) (cval : Half) :
    updateCompare u cval { b with seq := q } = { updateCompare u cval b with seq := q } := by cases u <;> rfl

/-- Only the two addresses of `SEQ` read it (R44, R72). -/
theorem readReg_with_seq {a : BitVec 8} (h46 : a ≠ 0x46#8) (h47 : a ≠ 0x47#8) :
    readReg a { b with seq := q } = readReg a b := by
  unfold readReg
  split
  case h_38 => exact absurd rfl h46
  case h_39 => exact absurd rfl h47
  all_goals rfl

end OtherSeq

/-- A performed command but CBRET neither reads nor writes `SEQ` (R156, R200). -/
theorem CommandEffect.with_seq {i : Instr} {b b' : Block} (h : CommandEffect i b b') (hi : i ≠ .cbret) (q : Seq) :
    CommandEffect i { b with seq := q } { b' with seq := q } := by
  cases h with
  | tinit x k o u hx hk ho hu => simpa using CommandEffect.tinit (b := { b with seq := q }) x k o u hx hk ho hu
  | tstart x k hx hk => simpa using CommandEffect.tstart (b := { b with seq := q }) x k hx hk
  | tstop x hx => simpa using CommandEffect.tstop (b := { b with seq := q }) x hx
  | tdeinit x hx => simpa using CommandEffect.tdeinit (b := { b with seq := q }) x hx
  | tcmp u hx hc => simpa using CommandEffect.tcmp (b := { b with seq := q }) u hx hc
  | setcb x hx => exact .setcb x hx
  | xinit l hl he => exact .xinit l hl he
  | xdeinit l hl => exact .xdeinit l hl
  | cbret => exact absurd rfl hi

/-- Settles O45: the operands alone decide whether a command is refused, and neither a performed command nor a read of
another register looks at `SEQ`. -/
theorem commandsIgnoreInterruptContext : Obligations.CommandsIgnoreInterruptContext := by
  intro i q s hcbret h46 h47
  cases hw : i.wellFormed with
  | false => exact ⟨_, exec_of_not_wellFormed hw _, exec_of_not_wellFormed hw _⟩
  | true =>
    cases hp : pairingError i with
    | true => exact ⟨_, exec_of_pairingError hw hp _, exec_of_pairingError hw hp _⟩
    | false =>
      by_cases hread : ∃ a, i = .rdreg a
      case pos =>
        obtain ⟨a, rfl⟩ := hread
        have hv : readReg a { s.block with seq := q } = readReg a s.block :=
          readReg_with_seq q s.block (h46 <| congrArg _ ·) (h47 <| congrArg _ ·)
        simp only [exec, execRdreg, hv]
        cases readReg a s.block with
        | some | none => exact ⟨_, rfl, rfl⟩
      case neg =>
        obtain ⟨b, hb⟩ := exists_effect_of_accepted hw hp hcbret (not_exists.mp hread) s.block
        exact ⟨_, exec_of_effect hb, exec_of_effect (hb.with_seq hcbret q)⟩

end Sys2Proof.Machine
end

section
/-! Proofs for the external lines (spec/43_external_interrupt.md): bit writes as masks, and the effects of XINIT and XDEINIT
in closed form. -/

namespace Sys2Proof.Machine

open Sys2Proof

/-! ### Bit writes as masks -/

section Masks

variable {m : Nat} (i : Nat) (r : BitVec m)

/-- Every bit after a bit write. -/
theorem getLsbD_putBit (v : Bool) (j : Nat) :
    (putBit i v r).getLsbD j = (decide (j < m) && if j = i then v else r.getLsbD j) := by
  have hpos : i ≤ j ∧ j < i + 1 ↔ j = i := by omega
  simp only [putBit, getLsbD_putField, hpos]
  by_cases h : j = i <;> simp [h]

/-- Setting a bit is an OR with its mask (R11). -/
theorem putBit_true : putBit i true r = r ||| BitVec.twoPow m i := by
  apply BitVec.eq_of_getLsbD_eq
  intro j hj
  rw [getLsbD_putBit, BitVec.getLsbD_or, BitVec.getLsbD_twoPow]
  by_cases h : j = i
  · simp [h ▸ hj, h]
  · simp [hj, h, Ne.symm h]

/-- Clearing a bit is an AND with the complement of its mask (R11). -/
theorem putBit_false : putBit i false r = r &&& ~~~BitVec.twoPow m i := by
  apply BitVec.eq_of_getLsbD_eq
  intro j hj
  rw [getLsbD_putBit, BitVec.getLsbD_and, BitVec.getLsbD_not, BitVec.getLsbD_twoPow]
  by_cases h : j = i
  · simp [h ▸ hj, h]
  · simp [hj, h, Ne.symm h]

/-- A second write of a bit replaces the first. -/
theorem putBit_putBit_same (v w : Bool) : putBit i v (putBit i w r) = putBit i v r := putField_putField_same ..

end Masks

/-! ### The effects in closed form -/

/-- The bit of a line in the registers that hold one bit per line (R38 to R42). -/
def lineMask (l : Line) : BitVec 3 := BitVec.twoPow 3 (lineIndex l)

/-- XINIT writes the selector and sets the enable, the lifecycle and, with a pull-up, the pull-up of its line; the line
becomes an input (R160, R161). -/
theorem initLine_eq (p : Bool) (l : Line) (m : EdgeMode) (e : ExtLines) :
    initLine p l m e = { setEdgeSelect l (edgeCode m) e with
      eien := e.eien ||| lineMask l
      epdir := e.epdir &&& ~~~lineMask l
      epup := if p then e.epup ||| lineMask l else e.epup
      xlife := e.xlife ||| lineMask l } := by
  cases l
  all_goals
    simp only [initLine, clearLine, setEdgeSelect, putBit_putBit_same]
    simp only [putBit_true, putBit_false, lineMask]

/-- XDEINIT clears the selector, the enable and the lifecycle of its line (R163). -/
theorem deinitLine_eq (l : Line) (e : ExtLines) :
    deinitLine l e = { setEdgeSelect l 0 e with
      eien := e.eien &&& ~~~lineMask l
      xlife := e.xlife &&& ~~~lineMask l } := by
  cases l <;> simp only [deinitLine, clearLine, setEdgeSelect, putBit_false, lineMask]

/-! ### XINIT and XDEINIT -/

/-- Settles O25, line by line; the modes line 2 does not have are a pairing error. -/
theorem xinitResult : Obligations.XinitResult := by
  refine ⟨fun w hop => (decode_eq_ok_iff w _).mpr ⟨hop, rfl⟩, fun edge s =>
    ⟨exec_answered_of_effect_eq (.xinit .line0 rfl rfl) ?line0, exec_answered_of_effect_eq (.xinit .line1 rfl rfl) ?line1,
      fun hedge => ?line2, fun hedge => exec_of_pairingError rfl ?unsupported s, invalidCodesAreNoOps _ s rfl⟩⟩
  case line0 | line1 => rw [initLine_eq, edgeCode_of]; rfl
  case line2 =>
    rcases hedge with rfl | rfl <;>
      exact exec_answered_of_effect_eq (.xinit .line2 rfl rfl) (by rw [initLine_eq]; rfl)
  case unsupported => rcases hedge with rfl | rfl <;> rfl

/-- Settles O26, line by line. -/
theorem xdeinitResult : Obligations.XdeinitResult := by
  refine ⟨fun w hop => (decode_eq_ok_iff w _).mpr ⟨hop, rfl⟩, fun s =>
    ⟨exec_answered_of_effect_eq (.xdeinit .line0 rfl) ?line0, exec_answered_of_effect_eq (.xdeinit .line1 rfl) ?line1,
      exec_answered_of_effect_eq (.xdeinit .line2 rfl) ?line2, invalidCodesAreNoOps _ s rfl⟩⟩
  case line0 | line1 | line2 => rw [deinitLine_eq]; rfl

end Sys2Proof.Machine
end

section
/-! Proofs for the register read-back (spec/44_register_read.md): RDREG of a mapped and of an unmapped address. -/

namespace Sys2Proof.Machine

open Sys2Proof

/-- RDREG of a mapped address responds OK with the register's value and changes nothing (R170). -/
theorem exec_rdreg_of_mapped {a : BitVec 8} {s : State} {v : Half} (h : readReg a s.block = some v) :
    exec (.rdreg a) s = .next (respond .ok v s) := by
  simp only [exec, execRdreg, h]

/-- RDREG of an unmapped address is ignored (R171). -/
theorem exec_rdreg_of_unmapped {a : BitVec 8} {s : State} (h : readReg a s.block = none) :
    exec (.rdreg a) s = ignore s := by
  simp only [exec, execRdreg, h]

/-- An OK response is its data, and leaves everything but the response port (R99, R100). -/
theorem respond_ok (v : Half) (s : State) : respond .ok v s = answered (v.setWidth 32) s.block s := by
  rw [respond, responseWord_ok]
  rfl

/-- Settles O27, by whether the map has a register at the address, which is whether the address is not one of R171. -/
theorem rdregResult : Obligations.RdregResult := by
  refine ⟨fun w hop => (decode_eq_ok_iff w _).mpr ⟨hop, rfl⟩, fun a s => ⟨fun ha => ?unmapped, fun ha => ?mapped⟩⟩
  case unmapped =>
    have hnone : readReg a s.block = none := (readReg_eq_none_iff a s.block).mpr ha
    exact (exec_rdreg_of_unmapped hnone).trans (congrArg Host.Outcome.next (respond_ignored s))
  case mapped =>
    have hsome : readReg a s.block ≠ none := by simp [readReg_eq_none_iff, ha]
    obtain ⟨v, hv⟩ := Option.ne_none_iff_exists'.mp hsome
    exact ⟨v, hv, (exec_rdreg_of_mapped hv).trans (congrArg Host.Outcome.next (respond_ok v s))⟩

end Sys2Proof.Machine
end

section
/-! Proofs for exceptions (spec/60_exceptions.md): when a command is ignored, refused or performed, what an event and a
dispatch entry leave, the sequencer on its own, and a handler that never returns. -/

namespace Sys2Proof.Machine

open Sys2Proof

/-! ### A handler that never returns (R207) -/

/-- The next move of a host that never ends its handler is no CBRET. -/
theorem NeverReturns.currentCommand_ne {s : State} (h : NeverReturns s.schedule) : currentCommand s ≠ some .cbret := by
  unfold currentCommand
  split
  case h_1 w rest hs =>
    have hw : decode w ≠ .ok .cbret := (h (.command w) (by simp [hs])).2 w rfl
    cases hd : decode w with
    | error e => nofun
    | ok i => exact fun hi => hw (hd.trans (congrArg Except.ok (Option.some.inj hi)))
  case h_2 => nofun

/-- Nor is it a reset. -/
theorem NeverReturns.resetNext_eq_false {s : State} (h : NeverReturns s.schedule) : resetNext s = false := by
  unfold resetNext
  split
  case h_1 rest hs => exact absurd rfl (h .reset (by simp [hs])).1
  case h_2 => rfl

/-- The moves after the next one hold no CBRET and no reset either. -/
theorem NeverReturns.tail {ms : List Move} (h : NeverReturns ms) : NeverReturns ms.tail :=
  fun m hm => h m (List.mem_of_mem_tail hm)

/-- Settles O46, by induction on the number of steps: each keeps `SEQ` and leaves a schedule that never returns. -/
theorem unendedHandlerHangsForEver : Obligations.UnendedHandlerHangsForEver := by
  intro n
  induction n with
  | zero => exact fun s _ _ => ⟨s, rfl, rfl⟩
  | succ n ih =>
    intro s hbusy hnever
    obtain ⟨u, hu⟩ := exists_step s
    have hkept : u.block.seq = s.block.seq :=
      (noNesting s u hbusy hu).2 hnever.currentCommand_ne hnever.resetNext_eq_false
    obtain ⟨t, ht, hseq⟩ := ih u (by rw [hkept, hbusy]) (by rw [step_schedule hu]; exact hnever.tail)
    exact ⟨t, (after_succ_of_step n hu).trans ht, hseq.trans hkept⟩

/-! ### The status of a command (R180 to R182) -/

/-- The causes of IGNORED, one by one (R182). -/
theorem ignoredCause_iff (i : Instr) (b : Block) : ignoredCause i b = true ↔
    i.wellFormed = false ∨ (∃ a, i = .rdreg a ∧ readReg a b = none) ∨ (i = .cbret ∧ b.seq.busy = false) := by
  cases i with
  | rdreg a => simp [ignoredCause, Instr.wellFormed, readReg_eq_none_iff]
  | cbret => simp [ignoredCause, Instr.wellFormed]
  | tinit | tstart | tstop | tdeinit | tcmp | setcb | xinit | xdeinit => simp [ignoredCause]

/-- A command with a cause of IGNORED is ignored (R182). -/
theorem exec_of_ignoredCause {i : Instr} {s : State} (h : ignoredCause i s.block = true) : exec i s = ignore s := by
  rcases (ignoredCause_iff i s.block).mp h with hw | ⟨a, rfl, hnone⟩ | ⟨rfl, hidle⟩
  · exact exec_of_not_wellFormed hw s
  · exact exec_rdreg_of_unmapped hnone
  · exact exec_cbret_of_idle hidle

/-- A command with no cause of IGNORED has valid codes (R96). -/
theorem wellFormed_of_not_ignoredCause {i : Instr} {b : Block} (hi : ¬ignoredCause i b = true) : i.wellFormed = true :=
  Bool.of_not_eq_false fun hw => hi ((ignoredCause_iff i b).mpr (.inl hw))

/-- A command with neither a cause of IGNORED nor a pairing error responds OK (R181, R182). -/
theorem exec_of_no_error {i : Instr} {s : State} (hi : ¬ignoredCause i s.block = true) (hp : ¬pairingError i = true) :
    ∃ v b, exec i s = .next (respond .ok v { s with block := b }) := by
  by_cases hcbret : i = .cbret
  case pos =>
    subst hcbret
    have hbusy : s.block.seq.busy = true :=
      Bool.of_not_eq_false fun hidle => hi ((ignoredCause_iff _ _).mpr (.inr (.inr ⟨rfl, hidle⟩)))
    exact ⟨0, _, exec_of_effect (.cbret hbusy)⟩
  by_cases hread : ∃ a, i = .rdreg a
  case pos =>
    obtain ⟨a, rfl⟩ := hread
    have hmapped : readReg a s.block ≠ none :=
      fun hnone => hi ((ignoredCause_iff _ _).mpr (.inr (.inl ⟨a, rfl, hnone⟩)))
    obtain ⟨v, hv⟩ := Option.ne_none_iff_exists'.mp hmapped
    exact ⟨v, s.block, exec_rdreg_of_mapped hv⟩
  case neg =>
    obtain ⟨b, hb⟩ := exists_effect_of_accepted (wellFormed_of_not_ignoredCause hi) (Bool.eq_false_of_not_eq_true hp)
      hcbret (not_exists.mp hread) s.block
    exact ⟨0, b, exec_of_effect hb⟩

/-- Settles O10, in the order of R102: reserved opcode, causes of IGNORED, pairing errors. -/
theorem responseStatusIsClassified : Obligations.ResponseStatusIsClassified := by
  intro w rest s hs
  cases hw : decode w with
  | error e => exact ⟨_, _, step_of_decode_error hs hw, rfl, rfl⟩
  | ok i =>
    have hstep : step s = exec i { s with schedule := rest } := stepRunsTheDecodedCommand w rest i s hs hw
    by_cases hi : ignoredCause i s.block = true
    case pos => exact ⟨_, _, hstep.trans (exec_of_ignoredCause hi), rfl, (if_pos hi).mpr rfl⟩
    by_cases hp : pairingError i = true
    case pos =>
      have hexec := exec_of_pairingError (wellFormed_of_not_ignoredCause hi) hp { s with schedule := rest }
      exact ⟨_, _, hstep.trans hexec, rfl, (if_neg hi).mpr ((if_pos hp).mpr rfl)⟩
    case neg =>
      obtain ⟨v, b, hexec⟩ := exec_of_no_error (s := { s with schedule := rest }) hi hp
      exact ⟨_, _, hstep.trans hexec, rfl, (if_neg hi).mpr ((if_neg hp).mpr (responseWord_status .ok v))⟩

/-- A scheduled word is answered once: OK, or with an error that leaves the block (R180). -/
theorem step_of_word {s : State} {w : CommandWord} {rest : List Move} (hs : s.schedule = .command w :: rest) :
    ∃ st v b, step s = .next (respond st v { s with block := b, schedule := rest }) ∧ (st = .ok ∨ b = s.block) := by
  cases hw : decode w with
  | error e => exact ⟨.ignored, 0, s.block, step_of_decode_error hs hw, .inr rfl⟩
  | ok i =>
    have hstep : step s = exec i { s with schedule := rest } := stepRunsTheDecodedCommand w rest i s hs hw
    rcases exec_cases i { s with schedule := rest } with ⟨b, _, h⟩ | ⟨_, v, _, _, h⟩ | h | h
    · exact ⟨.ok, 0, b, hstep.trans h, .inl rfl⟩
    · exact ⟨.ok, v, s.block, hstep.trans h, .inl rfl⟩
    · exact ⟨.configError, 0, s.block, hstep.trans h, .inr rfl⟩
    · exact ⟨.ignored, 0, s.block, hstep.trans h, .inr rfl⟩

/-- Settles O11: an answer with a status other than OK is an error, which leaves the block. -/
theorem errorsLeaveTheBlockUnchanged : Obligations.ErrorsLeaveTheBlockUnchanged := by
  intro w rest s hs
  obtain ⟨st, v, b, hstep, hkept⟩ := step_of_word hs
  refine ⟨_, responseWord st v, hstep, rfl, fun hstatus => ?_⟩
  rw [responseWord_status] at hstatus
  have hb : b = s.block := hkept.resolve_left fun hok => hstatus (by rw [hok]; rfl)
  rw [hb]
  rfl

/-! ### Events of the environment (R186) -/

/-- A scheduled event that is not enabled is dropped. -/
theorem step_event_of_not_enabled {s : State} {e : Event} {rest : List Move} (hs : s.schedule = .event e :: rest)
    (he : eventEnabled e s.block = false) : step s = .next (moved s.block rest s) := by
  simp only [step, nextTurn, hs, raiseEvent, he]
  rfl

/-- A scheduled event of a timer whose clock-select bits are `cs`, with its effect in closed form. -/
theorem step_timerEvent {s : State} {e : Event} {rest : List Move} {cs : BitVec 3} {b : Block}
    (hs : s.schedule = .event e :: rest) (hen : eventEnabled e s.block = decide (cs ≠ 0#3))
    (hb : eventEffect e s.block = b) : step s = .next (moved (if cs ≠ 0#3 then b else s.block) rest s) := by
  subst hb
  split
  case isTrue hcs => exact step_event hs (hen.trans (decide_eq_true hcs))
  case isFalse hcs => exact step_event_of_not_enabled hs (hen.trans (decide_eq_false hcs))

/-- A scheduled event of a line, with its effect in closed form. -/
theorem step_lineEvent {s : State} {l : Line} {rest : List Move} {b : Block}
    (hs : s.schedule = .event (.ext l) :: rest) (hb : eventEffect (.ext l) s.block = b) :
    step s = .next (moved b rest s) :=
  hb ▸ step_event hs rfl

/-- Settles O30, event by event; those that set a flag OR its bit into the flag register. -/
theorem eventEffects : Obligations.EventEffects := by
  intro rest s
  refine ⟨fun _ hs => step_timerEvent hs rfl rfl, fun _ hs => step_timerEvent hs rfl rfl,
    fun _ hs => step_timerEvent hs rfl rfl, fun hs => step_timerEvent hs rfl rfl, fun hs => step_timerEvent hs rfl rfl,
    fun hs => step_timerEvent hs rfl rfl, fun hs => step_timerEvent hs rfl ?ovf0,
    fun hs => step_timerEvent hs rfl ?ovf1, fun hs => step_timerEvent hs rfl ?ovf2,
    fun hs => step_timerEvent hs rfl ?cmp0, fun hs => step_timerEvent hs rfl ?cmpa1,
    fun hs => step_timerEvent hs rfl ?cmpb1, fun hs => step_timerEvent hs rfl ?cmp2,
    fun hs => step_lineEvent hs ?ext0, fun hs => step_lineEvent hs ?ext1, fun hs => step_lineEvent hs ?ext2⟩
  case ovf0 | ovf1 | ovf2 | cmp0 | cmpa1 | cmpb1 | cmp2 | ext0 | ext1 | ext2 =>
    simp only [eventEffect, ovfCause, cmpCause, extCause, setFlag, writeFlag, putBit_true]
    rfl

/-! ### The table of causes (R184) -/

/-- The events of the table are those of its causes. -/
theorem eventCause_of_mem_table : ∀ p ∈ allCauses.zip [.ovf .t0, .cmp .t0, .ovf .t1, .cmp (.t1 .a), .cmp (.t1 .b),
    .ovf .t2, .cmp .t2, .ext .line0, .ext .line1, .ext .line2], eventCause p.2 = some p.1 := by
  decide

/-- Settles O31: the codes both ways, the bits row by row, and what an event does to each flag. -/
theorem causeTable : Obligations.CauseTable := by
  refine ⟨causeOf_codes, codes_of_causeOf, fun b => ⟨rfl, fun p hp => ?_⟩⟩
  have hflag : ∀ d, flagOf d (eventEffect p.2 b) = (decide (p.1 = d) || flagOf d b) := fun d => by
    simp [flagOf_eventEffect, eventCause_of_mem_table p hp]
  exact ⟨by simp [hflag], fun d hd => by simp [hflag, hd.symm]⟩

/-! ### Dispatch entries (R191 to R194) -/

/-- An entry that finds an empty slot only clears the flag of its cause (R193). -/
theorem enterDispatch_of_empty {c : Cause} {s : State} (h0 : slotOf (causeSource c) s.block.cb = 0) :
    enterDispatch c s = quiet { s with block := clearFlag c s.block } :=
  if_pos h0

/-- Settles O32, by whether the slot of the cause's source is empty. -/
theorem dispatchEntry : Obligations.DispatchEntry := by
  intro c rest s hs hidle hreq
  have he : entryEnabled c s.block = true := (entryEnabled_iff c s.block).mpr ⟨hidle, hreq⟩
  refine ⟨fun h0 => ?handler, fun h0 => ?empty⟩
  case handler => rw [← callWord_eq]; exact step_call hs he rfl h0
  case empty =>
    exact ⟨clearFlag c s.block, (step_entry hs he).trans (congrArg _ (enterDispatch_of_empty h0)),
      flagOf_writeFlag_same c false s.block, fun d hd => flagOf_writeFlag_other false s.block hd,
      clearFlag_seq c s.block, withFlagsAndSeqOf_writeFlag c false s.block⟩

/-- A scheduled entry that is not enabled is dropped. -/
theorem step_entry_of_not_enabled {s : State} {c : Cause} {rest : List Move} (hs : s.schedule = .dispatch c :: rest)
    (he : entryEnabled c s.block = false) : step s = .next (moved s.block rest s) := by
  simp only [step, nextTurn, hs, dispatchMove, he]
  rfl

/-- Settles O33: a busy sequencer or a cause that does not request disables the entry. -/
theorem noEntryWhenNotEnabled : Obligations.NoEntryWhenNotEnabled := by
  intro c rest s hs hno
  have he : entryEnabled c s.block = false := by rcases hno with h | h <;> simp [entryEnabled, h]
  exact step_entry_of_not_enabled hs he

/-- With nothing scheduled, a step that changes nothing leaves the schedule empty. -/
theorem moved_of_schedule_nil {s : State} (hs : s.schedule = []) : moved s.block [] s = quiet s := by
  rw [← hs]
  rfl

/-- Settles O34, by what the sequencer can do on its own. -/
theorem sequencerServesOnItsOwn : Obligations.SequencerServesOnItsOwn := by
  intro s hs
  have hstep : step s = .next (sequencerAlone s) := step_of_schedule_nil hs
  rcases sequencerAlone_cases s with ⟨hno, hquiet⟩ | ⟨c, hidle, hc, hentry⟩
  case inl =>
    exact ⟨fun _ => by rw [hstep, hquiet, moved_of_schedule_nil hs],
      fun hidle hreq => absurd hno (by simp [hidle, hreq])⟩
  case inr =>
    have he : entryEnabled c s.block = true :=
      (entryEnabled_iff c s.block).mpr ⟨hidle, (mem_requestingCauses c s.block).mp hc⟩
    have hscheduled := step_entry (s := { s with schedule := [.dispatch c], arbDraws := s.arbDraws + 1 }) rfl he
    exact ⟨fun hno => absurd hno (by simp [hidle, List.ne_nil_of_mem hc]),
      fun _ _ => ⟨c, _, hc, hstep.trans (congrArg _ hentry), hscheduled.trans (by rw [← hs])⟩⟩

end Sys2Proof.Machine
end

section
/-! Proofs for reset and hazards (spec/70_reset_and_hazards.md): a reset in any state, and the block while nothing is clocked
and nothing is enabled. -/

namespace Sys2Proof.Machine

open Sys2Proof

/-! ### Reset (R220, R222) -/

/-- A scheduled reset leaves the reset block and drives no port (R220). -/
theorem step_reset {s : State} {rest : List Move} (hs : s.schedule = .reset :: rest) :
    step s = .next (moved Block.reset rest s) := by
  simp only [step, nextTurn, hs]
  rfl

/-- Settles O51: the reset block is idle, so CBRET is ignored there. -/
theorem resetClearsTheBlock : Obligations.ResetClearsTheBlock := by
  intro rest s hs
  have hidle : (moved Block.reset rest s).block.seq.busy = false := rfl
  exact ⟨step_reset hs, (exec_cbret_of_idle hidle).trans (congrArg _ (respond_ignored (moved Block.reset rest s)))⟩

/-! ### The dormant block (R221) -/

section DormantBlock

variable {b : Block}

/-- In a dormant block no timer is clocked. -/
theorem Dormant.clockSelect_eq_zero (h : Dormant b) (x : TimerId) : clockSelect x b = 0 := by
  obtain ⟨h0, h1, h2, _⟩ := h
  cases x with
  | t0 => exact h0
  | t1 => exact h1
  | t2 => exact h2

/-- In a dormant block no cause is enabled. -/
theorem Dormant.enableOf_eq_false (h : Dormant b) (c : Cause) : enableOf c b = false := by
  obtain ⟨_, _, _, h0, h1, h2, hext, _⟩ := h
  cases c <;> simp [enableOf, getBit, h0, h1, h2, hext]

/-- So no cause requests, whatever the flags (R185). -/
theorem Dormant.requesting_eq_false (h : Dormant b) (c : Cause) : requesting c b = false := by
  simp [requesting, h.enableOf_eq_false c]

/-- The set of requesting causes is empty (R192). -/
theorem Dormant.requestingCauses_eq_nil (h : Dormant b) : requestingCauses b = [] :=
  List.filter_eq_nil_iff.mpr fun c _ => by simp [h.requesting_eq_false c]

/-- So no dispatch entry is possible (R221). -/
theorem Dormant.not_entryEnabled (h : Dormant b) (c : Cause) : ¬entryEnabled c b = true := fun he => by
  simpa [h.requesting_eq_false c] using ((entryEnabled_iff c b).mp he).2

/-- With no clock the only events are those of the external lines (R186, R221). -/
theorem Dormant.event_of_eventEnabled (h : Dormant b) {e : Event} (he : eventEnabled e b = true) : ∃ l, e = .ext l := by
  cases e with
  | ext l => exact ⟨l, rfl⟩
  | count | wrap | ovf | cmp => simp [eventEnabled, h.clockSelect_eq_zero] at he

/-- External flags are no part of the condition. -/
theorem Dormant.with_eiflg (h : Dormant b) (f : BitVec 3) : Dormant { b with ext := { b.ext with eiflg := f } } := h

end DormantBlock

/-- An external event changes external flags only (R186). -/
theorem eventEffect_ext (l : Line) (b : Block) : eventEffect (.ext l) b =
    { b with ext := { b.ext with eiflg := (eventEffect (.ext l) b).ext.eiflg } } := by
  cases l <;> rfl

/-- With no word at the head of the schedule the step executes no command. -/
theorem currentCommand_of_no_word {s : State} (h : ∀ w rest, s.schedule ≠ .command w :: rest) :
    currentCommand s = none := by
  unfold currentCommand
  split
  case h_1 w rest hs => exact absurd hs (h w rest)
  case h_2 => rfl

/-- A step of a dormant block that is no command and no reset is an external event or changes nothing. -/
theorem step_of_dormant {s t : State} (hd : Dormant s.block) (hc : currentCommand s = none) (hr : resetNext s = false)
    (h : step s = .next t) :
    t.ports.call = none ∧ t.block = { s.block with ext := { s.block.ext with eiflg := t.block.ext.eiflg } } := by
  cases step_cases h with
  | same _ _ hb hp => exact ⟨hp, by rw [hb]⟩
  | command i hi => simp [hc] at hi
  | event e _ hen hb hp =>
    obtain ⟨l, rfl⟩ := hd.event_of_eventEnabled hen
    exact ⟨hp, by rw [hb]; exact eventEffect_ext l s.block⟩
  | emptyEntry c _ he | call c _ he => exact absurd he (hd.not_entryEnabled c)
  | reset hr' => simp [hr] at hr'

/-- Settles O52, from what a step can do to a dormant block. -/
theorem nothingRunsWithoutCommands : Obligations.NothingRunsWithoutCommands := by
  intro s t hd hword hr h
  obtain ⟨hcall, hblock⟩ := step_of_dormant hd (currentCommand_of_no_word hword) hr h
  have hd' : Dormant t.block := hblock ▸ hd.with_eiflg t.block.ext.eiflg
  exact ⟨hcall, hblock, hd', hd'.requestingCauses_eq_nil⟩

end Sys2Proof.Machine
end
